-- ==== Sys2Proof/Word.lean ====
section
/-! DEFINITION. The word types of ZCPG: what 10_state.md, 20_memory.md and 30_encoding.md treat as bits. -/

namespace Sys2Proof

/-- A byte of frame memory (20_memory.md R171). -/
abbrev Byte := BitVec 8

/-- A 32-bit register, a command word, or one half of a sample word (10_state.md R50, 20_memory.md R155). -/
abbrev Half := BitVec 32

/-- A sample word: the real part in bits [31:0], the imaginary part in bits [63:32] (30_encoding.md R230). -/
abbrev Sample := BitVec 64

/-- A byte offset in the host space (20_memory.md R150). -/
abbrev Offset := BitVec 20

/-- A byte address of frame memory (20_memory.md R170). -/
abbrev Addr := BitVec 32

/-- The exact zero (30_encoding.md R232). -/
abbrev zeroSample : Sample := 0#64

end Sys2Proof
end

