-- ==== Sys2Proof/Syntax.lean ====
section
/-! DEFINITION. The commands of ZCPG, what a command word decodes to, the accesses a host
can make, and the answers of the two external agents. -/

namespace Sys2Proof

/-- The twelve commands, one constructor per row of spec/opcode_table.json (30_encoding.md R205).
A command has no operand fields: its operands are registers (R201). -/
inductive Instr where
  | nop
  | rootSample
  | csSample
  | dftCoef
  | genSet
  | placeGrid
  | reorder
  | transform
  | buildBlock
  | computeOffset
  | placeFrame
  | generate
  deriving DecidableEq, Repr

/-- Why a command word is illegal, in the order of the tests (30_encoding.md R206). -/
inductive IllegalCause where
  | rsvdBits
  | opcUnknown
  deriving DecidableEq, Repr

/-- What the decoder answers for a command word: a row of the table or ILLEGAL (30_encoding.md R206). -/
inductive Decoded where
  | command (i : Instr)
  | illegal (c : IllegalCause)
  deriving DecidableEq, Repr

/-- The widths a bus master can ask for on the host's slave port (20_memory.md R150, R151). -/
inductive AccessWidth where
  | w8
  | w16
  | w32
  deriving DecidableEq, Repr

/-- Read or write on the slave port. -/
inductive HostOp where
  | read
  | write (data : Half)
  deriving DecidableEq, Repr

/-- One access of a host to ZCPG's register space (20_memory.md R150). -/
structure HostAccess where
  width : AccessWidth
  offset : Offset
  op : HostOp
  deriving DecidableEq, Repr

/-- What the transform engine has answered when the sequencer looks at the engine port (43_transform_interface.md
R401, R404): the 1024 words of EngineF, Fail, nothing so far, or nothing ever. -/
inductive EngineAnswer where
  | success
  | fail
  | notYet
  | never
  deriving DecidableEq, Repr, Inhabited

/-- What frame memory has answered when the sequencer looks at the frame port (20_memory.md R174, R176):
every write OKAY; the write of frame word `word` the lowest with an ERROR response; or not every response has
come (so far, or ever), with `issued` writes issued and `outstanding` of them unanswered. -/
inductive FrameAnswer where
  | okay
  | error (word : Nat)
  | notYet (issued outstanding : Nat)
  | never (issued outstanding : Nat)
  deriving DecidableEq, Repr, Inhabited

end Sys2Proof
end

