-- ==== Sys2Proof/WellFormed.lean ====
section
/-! DEFINITION. What a well-formed command, command word and host access is. -/

namespace Sys2Proof

/-- A command has no operand fields (30_encoding.md R200, R201), so every constructor is well formed. -/
def Instr.wellFormed : Instr → Bool
  | .nop => true
  | .rootSample => true
  | .csSample => true
  | .dftCoef => true
  | .genSet => true
  | .placeGrid => true
  | .reorder => true
  | .transform => true
  | .buildBlock => true
  | .computeOffset => true
  | .placeFrame => true
  | .generate => true

/-- The operation codes of 30_encoding.md R205. -/
def opcodes : List Nat := [0x00, 0x01, 0x02, 0x03, 0x04, 0x10, 0x11, 0x20, 0x30, 0x40, 0x41, 0x50]

/-- RSVD, bits [31:8] of a command word, must be 0 (30_encoding.md R200). -/
def rsvdClear (w : Half) : Bool := w.toNat / 256 == 0

/-- OPC, bits [7:0] of a command word, must be a code of the map (30_encoding.md R205). -/
def opcKnown (w : Half) : Bool := opcodes.contains (w.toNat % 256)

/-- A legal command word: both tests of 30_encoding.md R206. -/
def wordWellFormed (w : Half) : Bool := rsvdClear w && opcKnown w

/-- A legal host access is 32 bits wide at a multiple of 4 (20_memory.md R150). -/
def HostAccess.wellFormed (a : HostAccess) : Bool :=
  (match a.width with
   | .w8 => false
   | .w16 => false
   | .w32 => true)
  && a.offset.toNat % 4 == 0

end Sys2Proof
end

