-- ==== Sys2Proof/Decode.lean ====
section
/-! DEFINITION. Decoding a command word (30_encoding.md R205, R206) and, after it, encoding a command. -/

namespace Sys2Proof

/-- The row of 30_encoding.md R205 whose OPC is the given byte. -/
def decodeOpc (opc : Nat) : Option Instr :=
  match opc with
  | 0x00 => some .nop
  | 0x01 => some .rootSample
  | 0x02 => some .csSample
  | 0x03 => some .dftCoef
  | 0x04 => some .genSet
  | 0x10 => some .placeGrid
  | 0x11 => some .reorder
  | 0x20 => some .transform
  | 0x30 => some .buildBlock
  | 0x40 => some .computeOffset
  | 0x41 => some .placeFrame
  | 0x50 => some .generate
  | _ => none

/-- 30_encoding.md R206: the reserved bits are tested before the opcode. Total on every 32-bit word. -/
def decode (w : Half) : Decoded :=
  if w.toNat / 256 != 0 then .illegal .rsvdBits
  else
    match decodeOpc (w.toNat % 256) with
    | some i => .command i
    | none => .illegal .opcUnknown

/-- The host's question: the command read from `nbits` table bits `w`, the bits above them 0. A command is one
32-bit word (30_encoding.md R208), so anything above bit 31 is no command word. -/
def decodeTableWord (nbits w : Nat) : Option Instr :=
  if w % 2 ^ nbits < 2 ^ 32 then
    match decode (BitVec.ofNat 32 (w % 2 ^ nbits)) with
    | .command i => some i
    | .illegal _ => none
  else none

/-- OPC of a command (30_encoding.md R205). -/
def Instr.opcode : Instr → BitVec 8
  | .nop => 0x00#8
  | .rootSample => 0x01#8
  | .csSample => 0x02#8
  | .dftCoef => 0x03#8
  | .genSet => 0x04#8
  | .placeGrid => 0x10#8
  | .reorder => 0x11#8
  | .transform => 0x20#8
  | .buildBlock => 0x30#8
  | .computeOffset => 0x40#8
  | .placeFrame => 0x41#8
  | .generate => 0x50#8

/-- The command word: RSVD = 0 in bits [31:8], OPC in bits [7:0] (30_encoding.md R200, R205). -/
def encode (i : Instr) : Half := (0#24 ++ i.opcode)

end Sys2Proof
end

