-- ==== Sys2Proof/Config.lean ====
section
/-! DEFINITION. The parameters of ZCPG: the constants of 00_scope.md R14 and R15, the parameters the spec leaves
OPEN (R16), and the free values behind every "any value" of 93_implementation_defined.md. A free value is an
opaque constant applied to the number of the draw, so nothing can be proved of what it is. -/

namespace Sys2Proof.Config

/-- L, the sequence length and modulus (00_scope.md R14). -/
abbrev seqLen : Nat := 139

/-- N_PRE, the preambles of the set (00_scope.md R14). -/
abbrev numPreambles : Nat := 64

/-- ROOT_TABLE_LEN (00_scope.md R14). -/
abbrev rootTableLen : Nat := 40

/-- The symbols of a slot, the entries of SYM_DUR (10_state.md R127). -/
abbrev numSymbols : Nat := 14

/-- SC_PER_RB, subcarriers per resource block (00_scope.md R14). -/
abbrev scPerRb : Nat := 12

/-- FRAME_MS, milliseconds of the frame buffer (00_scope.md R14). -/
abbrev frameMs : Nat := 10

/-- G, the grid size (00_scope.md R15). -/
abbrev gridSize : Nat := 1024

/-- ID (10_state.md R52). -/
abbrev idValue : Half := 0x5A430001#32

/-- CAPS0: SEQ_LEN and GRID_SIZE (10_state.md R53). -/
abbrev caps0Value : Half := 0x008B0400#32

/-- IDFT_NORM, the engine's scaling convention, OPEN in the spec (00_scope.md R16, 43_transform_interface.md R403). -/
opaque idftNorm : Bool

/-- EngineF, the block the engine returns when it succeeds (43_transform_interface.md R401). -/
opaque engineF : Vector Sample gridSize → Vector Sample gridSize

/-- The engine's answer when State scripts none: a free draw per look (43_transform_interface.md R401). -/
opaque engineDraw (draw : Nat) : EngineAnswer

/-- Frame memory's answer when State scripts none: a free draw per look (20_memory.md R174). -/
opaque frameDraw (draw : Nat) : FrameAnswer

/-- The words of an unspecified buffer or frame region (93_implementation_defined.md U1, U3, U4, U5, U6):
word `index` of draw `draw`. -/
opaque anySample (draw index : Nat) : Sample

/-- What a window read while BUSY returns, a fresh draw per read (93_implementation_defined.md U2). -/
opaque anyHalf (draw : Nat) : Half

/-- What another agent's racing read returns (93_implementation_defined.md U6). -/
opaque anyByte (draw : Nat) : Byte

end Sys2Proof.Config
end

