-- ==== Sys2Proof/Machine/State.lean ====
section
/-! DEFINITION. The state of ZCPG as plain data: every register, flag, buffer and hidden item of 10_state.md, the
two external agents, and the events the outside brings. INVENTORY.md lists every field with its rule. -/

namespace Sys2Proof.Machine

/-- The causes of an error, the rows of 60_exceptions.md R602 (`none` is the success row). -/
inductive Err where
  | none
  | idxRange
  | ncsRange
  | cardvNdiv
  | ilenGtTable
  | vRange
  | noTd
  | cpGtBlock
  | repeatLt1
  | startSymRange
  | noBlock
  | gridStartNeg
  | gridEndOver
  | frameOffNeg
  | frameEndOver
  | fbAddrWrap
  | engineFail
  | opcUnknown
  | rsvdBits
  | busWriteErr
  deriving DecidableEq, Repr

/-- The fields of STATUS that are storage (10_state.md R60). BUSY is the sequencer's state (R61, R135). -/
structure Status where
  done : Bool
  wbusy : Bool
  psetValid : Bool
  tdValid : Bool
  asmValid : Bool
  frameValid : Bool
  engHeld : Bool
  errCode : BitVec 3
  errDetail : BitVec 8
  lastOpc : BitVec 8
  deriving DecidableEq, Repr

/-- The configuration and argument registers no command writes, each at its field's width (10_state.md R100 to
R111, R120 to R122, R126, R127, R128). -/
structure ConfigRegs where
  ncs : BitVec 8
  rbCount : BitVec 16
  freqOffset : BitVec 16
  cpLen : BitVec 16
  repeatCount : BitVec 16
  samplesPerMs : BitVec 20
  slotSamples : BitVec 20
  frameIndex : BitVec 4
  slotIndex : BitVec 4
  startSymbol : BitVec 4
  /-- Bits [31:3] of FB_BASE; bits [2:0] read 0 (10_state.md R110). -/
  fbBase : BitVec 29
  preambleIndex : Half
  qN : Half
  qU : BitVec 8
  qV : BitVec 8
  rootTable : Vector (BitVec 8) Config.rootTableLen
  symDur : Vector (BitVec 16) Config.numSymbols
  deriving DecidableEq, Repr

/-- The registers commands write (10_state.md R112, R117 to R119, R123 to R125). -/
structure Results where
  frameOffset : Half
  asmLen : BitVec 26
  asmCp : BitVec 16
  asmR : BitVec 16
  qRe : Half
  qIm : Half
  qPhase : BitVec 8
  qPvalid : Bool
  deriving DecidableEq, Repr

/-- A position in a command's pseudocode where the machine can be seen (10_state.md R135): before it starts, in
the transform stage waiting for the engine, or in the frame stage waiting for frame memory. -/
inductive Stage where
  | start
  | engine
  | frame
  deriving DecidableEq, Repr

/-- The sequencer: IDLE or BUSY(opc, stage) (10_state.md R135). -/
inductive Sequencer where
  | idle
  | busy (c : Decoded) (stage : Stage)
  deriving DecidableEq, Repr

/-- The answer of the slave port to a host access: OKAY or the bus error, and the data read (20_memory.md R150
to R152); a write returns data 0. -/
structure Response where
  error : Bool
  data : Half
  deriving DecidableEq, Repr

/-- What can happen next from outside, one at a time (20_memory.md R178, 70_reset_and_hazards.md R734). -/
inductive Event where
  /-- the slave port receives a host access -/
  | host (a : HostAccess)
  /-- another agent writes a byte of frame memory (20_memory.md R177) -/
  | agentWrite (addr : Addr) (b : Byte)
  /-- another agent reads a byte of frame memory (20_memory.md R177) -/
  | agentRead (addr : Addr)
  /-- the hardware reset input changes (70_reset_and_hazards.md R700) -/
  | resetLine (asserted : Bool)
  /-- nothing: the sequencer has the turn -/
  | sequencer
  deriving DecidableEq, Repr

/-- Frame memory: bytes at addresses, in the canonical form `Memory.wf`. An unlisted address holds no value the
model knows (20_memory.md R175). -/
abbrev Memory := List Host.Cell

structure State where
  irqEn : Bool
  cmd : Half
  status : Status
  cfg : ConfigRegs
  results : Results
  /-- The model's: `results` as they were at the running command's acceptance (40_command_control.md R254). -/
  shadow : Results
  pset : Vector (Vector Sample Config.seqLen) Config.numPreambles
  grid : Vector Sample Config.gridSize
  td : Vector Sample Config.gridSize
  sequencer : Sequencer
  /-- Frame writes the running command has issued (70_reset_and_hazards.md R703). -/
  issued : Nat
  /-- Frame writes issued and not yet answered (10_state.md R136). -/
  outstanding : Nat
  /-- The hardware reset input is asserted (70_reset_and_hazards.md R700). -/
  resetAsserted : Bool
  /-- The model's: another agent wrote the frame region during the running command (20_memory.md R177). -/
  raced : Bool
  mem : Memory
  engine : List EngineAnswer
  frameAnswers : List FrameAnswer
  events : List Event
  response : Option Response
  agentResponse : Option Byte
  /-- The model's: the number of the next free value. -/
  draws : Nat
  deriving DecidableEq, Repr

/-- Reasons the machine stops with a fault. No command raises one (60_exceptions.md R609). -/
inductive Fault where
  /-- Raised by `agentRead` when another agent reads a byte of frame memory that nothing has written: the model
  holds no value for it (20_memory.md R175). Safe. -/
  | unwrittenFrameByte
  deriving DecidableEq, Repr

/-- Reasons a step is refused. No command raises one. -/
inductive Refusal where
  /-- An instruction without a meaning, raised by `exec`'s arm alone; no arm does. Safe. -/
  | notModelled (mnemonic : String)
  /-- Raised by `hostAccess` while the hardware reset is asserted: the platform's business
  (70_reset_and_hazards.md R700, 93_implementation_defined.md U16). Safe. -/
  | accessDuringReset
  deriving DecidableEq, Repr

/-- A buffer of `n` words, word `j` being `f j`. Irreducible, so that comparing two states never unfolds a buffer. -/
@[irreducible] def fill {α : Type} (n : Nat) (f : Nat → α) : Vector α n := ⟨((List.range n).map f).toArray, by simp⟩

/-- A buffer of free values, draw number `d` (93_implementation_defined.md U1, U3). -/
def anyWords (n d : Nat) : Vector Sample n := fill n (Config.anySample d)

/-- The PSET buffer of free values, draw number `d` (93_implementation_defined.md U1). -/
def anyPset (d : Nat) : Vector (Vector Sample Config.seqLen) Config.numPreambles :=
  fill Config.numPreambles fun i => fill Config.seqLen fun k => Config.anySample d (i * Config.seqLen + k)

/-- STATUS after reset: every field 0 (10_state.md R140). -/
def Status.reset : Status where
  done := false
  wbusy := false
  psetValid := false
  tdValid := false
  asmValid := false
  frameValid := false
  engHeld := false
  errCode := 0#3
  errDetail := 0#8
  lastOpc := 0#8

/-- The configuration registers after reset (10_state.md R140). -/
def ConfigRegs.reset : ConfigRegs where
  ncs := 0#8
  rbCount := 0#16
  freqOffset := 0#16
  cpLen := 0#16
  repeatCount := 0#16
  samplesPerMs := 0#20
  slotSamples := 0#20
  frameIndex := 0#4
  slotIndex := 0#4
  startSymbol := 0#4
  fbBase := 0#29
  preambleIndex := 0#32
  qN := 0#32
  qU := 0#8
  qV := 0#8
  rootTable := fill Config.rootTableLen fun _ => 0#8
  symDur := fill Config.numSymbols fun _ => 0#16

/-- The result registers after reset (10_state.md R140). -/
def Results.reset : Results where
  frameOffset := 0#32
  asmLen := 0#26
  asmCp := 0#16
  asmR := 0#16
  qRe := 0#32
  qIm := 0#32
  qPhase := 0#8
  qPvalid := false

/-- ZCPG after reset (10_state.md R140). The buffers hold free values; the outside brings nothing, and no frame
memory byte is known (logs 1, 3, 5, 6, 7, 12, 13, 14, 20). -/
def State.reset : State where
  irqEn := false
  cmd := 0#32
  status := Status.reset
  cfg := ConfigRegs.reset
  results := Results.reset
  shadow := Results.reset
  pset := anyPset 0
  grid := anyWords Config.gridSize 1
  td := anyWords Config.gridSize 2
  sequencer := .idle
  issued := 0
  outstanding := 0
  resetAsserted := false
  raced := false
  mem := []
  engine := []
  frameAnswers := []
  events := []
  response := none
  agentResponse := none
  draws := 3

end Sys2Proof.Machine
end

