-- ==== Sys2Proof/Machine/Sample.lean ====
section
/-! DEFINITION. The sample word (30_encoding.md R230) and reading a buffer at an index. -/

namespace Sys2Proof.Machine

/-- re(w) (30_encoding.md R230). -/
def re (w : Sample) : Half := w.extractLsb' 0 32

/-- im(w) (30_encoding.md R230). -/
def im (w : Sample) : Half := w.extractLsb' 32 32

/-- cplx(a, b), real part a and imaginary part b (30_encoding.md R230). -/
def cplx (a b : Half) : Sample := b ++ a

/-- Half h of a sample word: the real part if h = 0, else the imaginary part (20_memory.md R155). -/
def halfOf (h : Nat) (w : Sample) : Half := if h = 0 then re w else im w

/-- The word with half h replaced and the other half kept (20_memory.md R162). -/
def setHalf (h : Nat) (data : Half) (w : Sample) : Sample :=
  if h = 0 then cplx data (im w) else cplx (re w) data

/-- Byte b of a sample word, w[8b+7:8b] (20_memory.md R171). -/
def byteOf (w : Sample) (b : Nat) : Byte := w.extractLsb' (8 * b) 8

/-- Element j of a buffer or table; beyond its end, `d`, which no rule reads. -/
def nth {α : Type} {n : Nat} (d : α) (v : Vector α n) (j : Nat) : α := v.toList.getD j d

/-- Element j of a sample buffer. -/
def word {n : Nat} (v : Vector Sample n) (j : Nat) : Sample := nth zeroSample v j

/-- PSET[i][k] (10_state.md R130). -/
def psetWord (p : Vector (Vector Sample Config.seqLen) Config.numPreambles) (i k : Nat) : Sample :=
  word (nth (fill Config.seqLen fun _ => zeroSample) p i) k

end Sys2Proof.Machine
end

