-- ==== Sys2Proof/Machine/Operands.lean ====
section
/-! DEFINITION. The operands of 30_encoding.md R202 and R203: each register read into an integer, and the
derived operands. All arithmetic is exact (00_scope.md R21, R27). -/

namespace Sys2Proof.Machine

/-- N_cs, zero-extended. -/
def State.opNcs (s : State) : Nat := s.cfg.ncs.toNat

/-- RB, zero-extended. -/
def State.opRb (s : State) : Nat := s.cfg.rbCount.toNat

/-- FO, sign-extended. -/
def State.opFo (s : State) : Int := s.cfg.freqOffset.toInt

/-- N_cp, zero-extended. -/
def State.opNcp (s : State) : Nat := s.cfg.cpLen.toNat

/-- R, sign-extended. -/
def State.opR (s : State) : Int := s.cfg.repeatCount.toInt

/-- SPM, zero-extended. -/
def State.opSpm (s : State) : Nat := s.cfg.samplesPerMs.toNat

/-- SLOTS, zero-extended. -/
def State.opSlots (s : State) : Nat := s.cfg.slotSamples.toNat

/-- FI, zero-extended. -/
def State.opFi (s : State) : Nat := s.cfg.frameIndex.toNat

/-- SI, zero-extended. -/
def State.opSi (s : State) : Nat := s.cfg.slotIndex.toNat

/-- SS, zero-extended. -/
def State.opSs (s : State) : Nat := s.cfg.startSymbol.toNat

/-- SD[i], zero-extended. -/
def State.opSd (s : State) (i : Nat) : Nat := (nth 0#16 s.cfg.symDur i).toNat

/-- FB_BASE as a 32-bit register: bits [2:0] read 0 (10_state.md R110). -/
def fbBaseWord (fb : BitVec 29) : Half := fb ++ 0#3

/-- FB, zero-extended: a multiple of 8. -/
def State.opFb (s : State) : Nat := (fbBaseWord s.cfg.fbBase).toNat

/-- IDX, sign-extended. -/
def State.opIdx (s : State) : Int := s.cfg.preambleIndex.toInt

/-- OFF, sign-extended. -/
def State.opOff (s : State) : Int := s.results.frameOffset.toInt

/-- QN, sign-extended. -/
def State.opQn (s : State) : Int := s.cfg.qN.toInt

/-- QU, zero-extended. -/
def State.opQu (s : State) : Nat := s.cfg.qU.toNat

/-- QV, zero-extended. -/
def State.opQv (s : State) : Nat := s.cfg.qV.toNat

/-- RT[r], zero-extended. -/
def State.opRt (s : State) (r : Nat) : Nat := (nth 0#8 s.cfg.rootTable r).toNat

/-- card_v = floor(139 / N_cs), and 0 when N_cs = 0 (00_scope.md R18). -/
def cardV (ncs : Nat) : Nat := if ncs = 0 then 0 else Config.seqLen / ncs

/-- i_length = 64 div card_v, and 0 when card_v = 0 (00_scope.md R18). -/
def iLength (ncs : Nat) : Nat := if cardV ncs = 0 then 0 else Config.numPreambles / cardV ncs

/-- C_v = (v x N_cs) mod 139 (41_sequence_generator.md R302). -/
def shiftOf (ncs v : Nat) : Nat := v * ncs % Config.seqLen

/-- start = (1024 - 12 x RB) div 2 + FO (42_spectral_mapper.md R351). -/
def gridStart (rb : Nat) (fo : Int) : Int :=
  ((Config.gridSize : Int) - Config.scPerRb * rb) / 2 + fo

/-- start of the current registers (10_state.md R116). -/
def State.opStart (s : State) : Int := gridStart s.opRb s.opFo

/-- FLEN = 10 x SPM (10_state.md R113). -/
def State.opFlen (s : State) : Nat := Config.frameMs * s.opSpm

/-- The sum of the first `n` symbol durations (45_frame_builder.md R501). -/
def symbolSum (sd : Nat → Nat) : Nat → Nat
  | 0 => 0
  | n + 1 => symbolSum sd n + sd n

/-- off = FI x SPM + SI x SLOTS + the durations of the symbols before SS (45_frame_builder.md R501). -/
def State.opOffset (s : State) : Nat :=
  s.opFi * s.opSpm + s.opSi * s.opSlots + symbolSum s.opSd s.opSs

/-- alen = N_cp + R x 1024 (45_frame_builder.md R520). -/
def State.opAlen (s : State) : Int := s.opNcp + s.opR * Config.gridSize

end Sys2Proof.Machine
end

