-- ==== Sys2Proof/Machine/Flags.lean ====
section
/-! DEFINITION. STATUS and its fields (10_state.md R60 to R69), the error and detail codes (60_exceptions.md R600,
R602) and the interrupt output (R620). -/

namespace Sys2Proof.Machine

/-- ERR_CODE of a cause (60_exceptions.md R600, R602). -/
def Err.code : Err → BitVec 3
  | .none => 0#3
  | .idxRange | .ncsRange | .cardvNdiv | .ilenGtTable | .vRange | .noTd | .cpGtBlock | .repeatLt1
  | .startSymRange | .noBlock => 1#3
  | .gridStartNeg | .gridEndOver | .frameOffNeg | .frameEndOver | .fbAddrWrap => 2#3
  | .engineFail => 3#3
  | .opcUnknown | .rsvdBits => 4#3
  | .busWriteErr => 5#3

/-- ERR_DETAIL of a cause (60_exceptions.md R602). -/
def Err.detail : Err → BitVec 8
  | .none => 0x00#8
  | .idxRange => 0x01#8
  | .ncsRange => 0x02#8
  | .cardvNdiv => 0x03#8
  | .ilenGtTable => 0x04#8
  | .vRange => 0x05#8
  | .noTd => 0x06#8
  | .cpGtBlock => 0x07#8
  | .repeatLt1 => 0x08#8
  | .startSymRange => 0x09#8
  | .noBlock => 0x0A#8
  | .gridStartNeg => 0x10#8
  | .gridEndOver => 0x11#8
  | .frameOffNeg => 0x12#8
  | .frameEndOver => 0x13#8
  | .fbAddrWrap => 0x14#8
  | .engineFail => 0x20#8
  | .opcUnknown => 0x30#8
  | .rsvdBits => 0x31#8
  | .busWriteErr => 0x40#8

/-- The cause of an illegal command word (30_encoding.md R206, 60_exceptions.md R602). -/
def illegalErr : IllegalCause → Err
  | .rsvdBits => .rsvdBits
  | .opcUnknown => .opcUnknown

/-- STATUS.BUSY: 1 from a command's acceptance to its completion (10_state.md R61). -/
def State.busy (s : State) : Bool :=
  match s.sequencer with
  | .idle => false
  | .busy _ _ => true

/-- One bit as a word. -/
def bit (b : Bool) : BitVec 1 := BitVec.ofBool b

/-- STATUS as the host reads it (10_state.md R60), its fields live while BUSY (40_command_control.md R254). DEDUCED
(log 26): TD_VALID and ASM_VALID too, which GENERATE has set when it waits in its frame stage, where R256 says that a
host observes the flags a command writes on success only once BUSY = 0. -/
def State.statusWord (s : State) : Half :=
  s.status.lastOpc ++ s.status.errDetail ++ 0#5 ++ s.status.errCode ++ bit s.status.engHeld
    ++ bit s.status.frameValid ++ bit s.status.asmValid ++ bit s.status.tdValid ++ bit s.status.psetValid
    ++ bit s.status.wbusy ++ bit s.status.done ++ bit s.busy

/-- A host write of STATUS affects only the W1C bits: DONE in bit 1, WBUSY in bit 2 (10_state.md R60, R51). -/
def Status.writeOneToClear (st : Status) (data : Half) : Status :=
  { st with done := st.done && !data.getLsbD 1, wbusy := st.wbusy && !data.getLsbD 2 }

/-- The interrupt output: IRQ_EN and DONE, at every moment (60_exceptions.md R620). -/
def State.irq (s : State) : Bool := s.irqEn && s.status.done

end Sys2Proof.Machine
end

