-- ==== Sys2Proof/Machine/Memory.lean ====
section
/-! DEFINITION. Frame memory (20_memory.md R170 to R175): a list of (address, byte) pairs in one canonical form,
addresses strictly rising and below 2^32. An unlisted address holds no value the model knows (log 12), so no
entry can equal what an unlisted address reads as. -/

namespace Sys2Proof.Machine

/-- Addresses are 32 bits (20_memory.md R170). -/
abbrev addrLimit : Nat := 2 ^ 32

/-- Every address of the list is above `lo` ... rising, and below 2^32. -/
def memRising : Nat → Memory → Bool
  | _, [] => true
  | lo, (a, _) :: m => decide (lo ≤ a) && decide (a < addrLimit) && memRising (a + 1) m

/-- The canonical form of frame memory. -/
def Memory.wf (m : Memory) : Bool := memRising 0 m

/-- The byte at an address, if any agent has written it. -/
def memRead : Memory → Nat → Option Byte
  | [], _ => none
  | (a', b) :: m, a => if a = a' then some b else memRead m a

/-- Write one byte, keeping the canonical form. -/
def memWriteByte : Memory → Nat → Byte → Memory
  | [], a, b => [(a, b)]
  | (a', b') :: m, a, b =>
    if a < a' then (a, b) :: (a', b') :: m
    else if a = a' then (a, b) :: m
    else (a', b') :: memWriteByte m a b

/-- Bytes 0 to n-1 of a sample word at a, a + 1, ... in that order. -/
def memWriteBytes (m : Memory) (a : Nat) (w : Sample) : Nat → Memory
  | 0 => m
  | n + 1 => memWriteByte (memWriteBytes m a w n) (a + n) (byteOf w n)

/-- MemWrite(addr, 8, w): byte b of w at addr + b, little-endian (20_memory.md R171). -/
def memWrite8 (m : Memory) (a : Nat) (w : Sample) : Memory := memWriteBytes m a w 8

/-- The writes of frame words 0 to n-1 at base + 8j, in ascending order, each once (20_memory.md R172, R173). -/
def memWriteWords (m : Memory) (base : Nat) (f : Nat → Sample) : Nat → Memory
  | 0 => m
  | n + 1 => memWrite8 (memWriteWords m base f n) (base + 8 * n) (f n)

end Sys2Proof.Machine
end

