-- ==== Sys2Proof/Machine/Ops.lean ====
section
/-! DEFINITION. The operations every command and the host port share: acceptance, checks, completion with or
without an error, the two external agents' answers, the frame region, and reset. -/

namespace Sys2Proof.Machine

/-! ### Acceptance and checks -/

/-- The commands that write frame memory (40_command_control.md R250). -/
def isFrameCommand : Decoded → Bool
  | .command .placeFrame => true
  | .command .generate => true
  | .command _ => false
  | .illegal _ => false

/-- Acceptance of a command word, in one step (40_command_control.md R250). `shadow` keeps what R254 shows of the
result registers while BUSY; `raced` starts clear. -/
def State.accept (w : Half) (s : State) : State :=
  { s with
    cmd := w
    status := { s.status with
      lastOpc := w.extractLsb' 0 8
      done := false
      frameValid := s.status.frameValid && !isFrameCommand (decode w) }
    sequencer := .busy (decode w) .start
    shadow := s.results
    raced := false }

/-- The position of the running command; a command started from nowhere is at its start. -/
def State.stage (s : State) : Stage :=
  match s.sequencer with
  | .idle => .start
  | .busy _ st => st

/-- A list of checks in the order a rule gives them: whether each fails, and its cause. -/
abbrev Checks := List (Bool × Err)

/-- The first check that fails (60_exceptions.md R604). -/
def firstError (checks : Checks) : Option Err := (checks.find? Prod.fst).map Prod.snd

/-- config_check() (41_sequence_generator.md R303). -/
def State.configChecks (s : State) : Checks :=
  [(cardV s.opNcs == 0, .ncsRange),
   (Config.numPreambles % cardV s.opNcs != 0, .cardvNdiv),
   (decide (Config.rootTableLen < Config.numPreambles / cardV s.opNcs), .ilenGtTable)]

/-- The preamble index check of PLACE_GRID and GENERATE (42_spectral_mapper.md R350). -/
def State.indexChecks (s : State) : Checks :=
  [(decide (s.opIdx < 0 ∨ (Config.numPreambles : Int) ≤ s.opIdx), .idxRange)]

/-- The grid bound checks (42_spectral_mapper.md R350). -/
def State.gridChecks (s : State) : Checks :=
  [(decide (s.opStart < 0), .gridStartNeg),
   (decide ((Config.gridSize : Int) < s.opStart + Config.seqLen), .gridEndOver)]

/-- The block checks on the operands (44_preamble_assembler.md R450). -/
def State.blockChecks (s : State) : Checks :=
  [(decide (Config.gridSize < s.opNcp), .cpGtBlock), (decide (s.opR < 1), .repeatLt1)]

/-- The start symbol check (45_frame_builder.md R500). -/
def State.symbolChecks (s : State) : Checks := [(decide (13 < s.opSs), .startSymRange)]

/-- The frame bound checks for a block of length `len` at `off` (45_frame_builder.md R510). -/
def State.frameChecks (s : State) (off len : Int) : Checks :=
  [(decide ((s.opFlen : Int) < off + len), .frameEndOver),
   (decide (addrLimit < s.opFb + 8 * s.opFlen), .fbAddrWrap)]

/-! ### Completion: the one way a command ends, with an error or without -/

/-- The completion step (40_command_control.md R256). An error is taken by the same step (60_exceptions.md R606):
nothing is saved, control goes nowhere, and there is no return from it (R607). Every response has come (R176). -/
def State.complete (e : Err) (s : State) : State :=
  { s with
    status := { s.status with errCode := e.code, errDetail := e.detail, done := true }
    sequencer := .idle
    issued := 0
    outstanding := 0 }

/-- How far a piece of pseudocode got: to its end, to a `raise`, or to a wait for an external agent. -/
inductive Progress where
  | done (s : State)
  | failed (s : State) (e : Err)
  | waiting (s : State)

/-- The next stage runs only after the one before it ended without error (40_command_control.md R263). -/
def Progress.andThen (p : Progress) (k : State → Progress) : Progress :=
  match p with
  | .done s => k s
  | .failed s e => .failed s e
  | .waiting s => .waiting s

/-- `complete`, `raise Error` or a wait (00_scope.md R25, 40_command_control.md R251). -/
def Progress.finish : Progress → State
  | .done s => s.complete .none
  | .failed s e => s.complete e
  | .waiting s => s

/-- Run a body behind its checks: the first failing check raises its error (00_scope.md R25). -/
def State.checked (s : State) (checks : Checks) (body : State → Progress) : Progress :=
  match firstError checks with
  | some e => .failed s e
  | none => body s

/-- The sequencer stays in command `i` at a waiting stage (10_state.md R135). -/
def State.waitAt (i : Instr) (st : Stage) (s : State) : State := { s with sequencer := .busy (.command i) st }

/-! ### The transform engine -/

/-- Look at the engine port (43_transform_interface.md R401): the next scripted answer, or a free draw. An engine
that never answers keeps not answering. -/
def State.pollEngine (s : State) : EngineAnswer × State :=
  match s.engine with
  | [] => (Config.engineDraw s.draws, { s with draws := s.draws + 1 })
  | .never :: _ => (.never, s)
  | a :: rest => (a, { s with engine := rest })

/-- Up to the wait of 43_transform_interface.md R410: clear the flags, Acquire, send GRID. -/
def State.transformBegin (s : State) : State :=
  { s with status := { s.status with tdValid := false, asmValid := false, engHeld := true } }

/-- Release the engine port (43_transform_interface.md R405). -/
def State.release (s : State) : State := { s with status := { s.status with engHeld := false } }

/-- A successful answer: TD receives the engine's words bit for bit (43_transform_interface.md R404, R410). -/
def State.storeBlock (s : State) : State :=
  { s with td := Config.engineF s.grid, status := { s.status with tdValid := true } }

/-- A Fail: every TD word is any value (43_transform_interface.md R407). -/
def State.spoilBlock (s : State) : State :=
  { s with td := anyWords Config.gridSize s.draws, draws := s.draws + 1 }

/-- From the engine's answer on (43_transform_interface.md R410), for the command `i` that invoked it. -/
def State.transformAnswer (i : Instr) (s : State) : Progress :=
  match s.pollEngine with
  | (.success, s) => .done s.release.storeBlock
  | (.fail, s) => .failed s.release.spoilBlock .engineFail
  | (.notYet, s) => .waiting (s.waitAt i .engine)
  | (.never, s) => .waiting (s.waitAt i .engine)

/-! ### Frame memory -/

/-- ASM(i) = TD[(i - ASM_CP) mod 1024] (44_preamble_assembler.md R455). -/
def State.asmWord (s : State) (i : Nat) : Sample :=
  word s.td (((i : Int) - s.results.asmCp.toNat) % Config.gridSize).toNat

/-- Frame word j with the block at `off` (45_frame_builder.md R511). -/
def State.frameWord (s : State) (off : Int) (j : Nat) : Sample :=
  if off ≤ (j : Int) ∧ (j : Int) < off + s.results.asmLen.toNat then s.asmWord ((j : Int) - off).toNat
  else zeroSample

/-- Frame memory after the frame writes when the words below `good` were answered OKAY: word j holds
`frameWord`, and from `good` on, or anywhere after a race, any value (45_frame_builder.md R510, 20_memory.md
R177). -/
def State.frameMem (s : State) (off : Int) (good : Nat) : Memory :=
  memWriteWords s.mem s.opFb
    (fun j => if s.raced = true ∨ good ≤ j then Config.anySample s.draws j else s.frameWord off j) s.opFlen

/-- The words of the frame region that have an address. -/
def State.regionWords (s : State) : Nat := min s.opFlen ((addrLimit - s.opFb) / 8)

/-- Frame memory with every word of the frame region any value (70_reset_and_hazards.md R703, 20_memory.md R177). -/
def State.spoiledRegion (s : State) (draw : Nat) : Memory :=
  memWriteWords s.mem s.opFb (Config.anySample draw) s.regionWords

/-- Look at frame memory's answers (20_memory.md R174): the next scripted answer, or a free draw. A memory that
never answers keeps not answering. -/
def State.pollFrame (s : State) : FrameAnswer × State :=
  match s.frameAnswers with
  | [] => (Config.frameDraw s.draws, { s with draws := s.draws + 1 })
  | .never n o :: _ => (.never n o, s)
  | a :: rest => (a, { s with frameAnswers := rest })

/-- The frame stage waits with `n` writes issued and `o` of them unanswered. Meanwhile every word of the region
is any value to another agent (20_memory.md R177). -/
def State.frameWait (i : Instr) (n o : Nat) (s : State) : State :=
  { s with
    sequencer := .busy (.command i) .frame
    issued := n
    outstanding := o
    mem := if n = 0 then s.mem else s.spoiledRegion s.draws
    draws := s.draws + 1 }

/-- Every write was answered OKAY: the frame is complete (45_frame_builder.md R510). -/
def State.frameDone (off : Int) (s : State) : State :=
  { s with
    mem := s.frameMem off s.opFlen
    draws := s.draws + 1
    status := { s.status with frameValid := true } }

/-- The lowest ERROR response was to word `good` (45_frame_builder.md R510). -/
def State.framePartial (off : Int) (good : Nat) (s : State) : State :=
  { s with mem := s.frameMem off good, draws := s.draws + 1 }

/-- frame_write(off) (45_frame_builder.md R510), for the command `i` that runs it. Writes issued stay issued. A
wait has a write unanswered once all are issued, and a wait without end has one from the first (R732). -/
def State.frameStage (i : Instr) (off : Int) (s : State) : Progress :=
  match s.pollFrame with
  | (.okay, s) => .done (s.frameDone off)
  | (.error je, s) =>
    if je < s.opFlen then .failed (s.framePartial off je) .busWriteErr else .done (s.frameDone off)
  | (.notYet n o, s) =>
    let n' := max s.issued (min n s.opFlen)
    .waiting (s.frameWait i n' (if n' = s.opFlen then max 1 (min o n') else min o n'))
  | (.never n o, s) =>
    let n' := max s.issued (min (n + 1) s.opFlen)
    .waiting (s.frameWait i n' (max 1 (min o n')))

/-- A PLACE_FRAME or GENERATE is in progress (20_memory.md R177). -/
def State.frameInProgress (s : State) : Bool :=
  match s.sequencer with
  | .idle => false
  | .busy c _ => isFrameCommand c

/-- A byte address inside the frame region (20_memory.md R177). -/
def State.inFrameRegion (s : State) (a : Nat) : Bool :=
  decide (s.opFb ≤ a ∧ a < s.opFb + 8 * s.opFlen)

/-! ### Reset -/

/-- The engine's coming answers after a reset: an answer that never comes belongs to the abandoned invocation alone
(43_transform_interface.md R401, 70_reset_and_hazards.md R702, R704). -/
def State.engineAfterReset (s : State) : List EngineAnswer :=
  match s.stage, s.engine with
  | .engine, .never :: rest => rest
  | _, l => l

/-- Frame memory's coming answers after a reset: an answer that never comes belongs to the abandoned writes alone
(70_reset_and_hazards.md R702). -/
def State.frameAfterReset (s : State) : List FrameAnswer :=
  match s.stage, s.frameAnswers with
  | .frame, .never _ _ :: rest => rest
  | _, l => l

/-- What a hardware or a soft reset does (70_reset_and_hazards.md R702, R703; 10_state.md R140): the command is
abandoned, all state takes its reset values, the buffers are drawn anew, and the frame region is any value if
frame writes had been issued. The outside and the model's counter go on. -/
def State.doReset (s : State) : State :=
  { State.reset with
    pset := anyPset s.draws
    grid := anyWords Config.gridSize (s.draws + 1)
    td := anyWords Config.gridSize (s.draws + 2)
    mem := if s.issued = 0 then s.mem else s.spoiledRegion (s.draws + 3)
    draws := s.draws + 4
    resetAsserted := s.resetAsserted
    engine := s.engineAfterReset
    frameAnswers := s.frameAfterReset
    events := s.events
    response := s.response
    agentResponse := s.agentResponse }

end Sys2Proof.Machine
end

