-- ==== Sys2Proof/Machine/Bus.lean ====
section
/-! DEFINITION. What else acts on ZCPG from outside: other agents on the frame memory bus (20_memory.md R176,
R177) and the hardware reset input (70_reset_and_hazards.md R700). -/

namespace Sys2Proof.Machine

/-- Another agent writes a byte of frame memory. Inside the frame region of a command in progress it is a race: the
region's contents are any value, now and after the command (20_memory.md R177). DESIGN CHOICE (log 27): every address
answers as plain storage, so that outside a race the byte is stored and reads back, where R175 leaves what answers at
an address to the platform. -/
def agentWrite (addr : Addr) (b : Byte) (s : State) : Host.Outcome State Fault Refusal :=
  if s.frameInProgress && s.inFrameRegion addr.toNat then
    .next { s with mem := s.spoiledRegion s.draws, raced := true, draws := s.draws + 1 }
  else .next { s with mem := memWriteByte s.mem addr.toNat b }

/-- Another agent reads a byte of frame memory. A race returns any value (20_memory.md R177). DESIGN CHOICE: outside a
race it is the byte last stored at the address (log 27), and a byte nothing has written has no value the model knows
(log 12). -/
def agentRead (addr : Addr) (s : State) : Host.Outcome State Fault Refusal :=
  if s.frameInProgress && s.inFrameRegion addr.toNat then
    .next { s with agentResponse := some (Config.anyByte s.draws), draws := s.draws + 1 }
  else
    match memRead s.mem addr.toNat with
    | some b => .next { s with agentResponse := some b }
    | none => .fault .unwrittenFrameByte

/-- The hardware reset input changes; asserting it resets ZCPG (70_reset_and_hazards.md R700). -/
def resetLine (asserted : Bool) (s : State) : Host.Outcome State Fault Refusal :=
  .next { (if asserted then s.doReset else s) with resetAsserted := asserted }

end Sys2Proof.Machine
end

