-- ==== Sys2Proof/Machine/Assembler.lean ====
section
/-! DEFINITION. The preamble assembler: BUILD_BLOCK (44_preamble_assembler.md). -/

namespace Sys2Proof.Machine

/-- TD must hold a block (44_preamble_assembler.md R450, R451). -/
def State.tdChecks (s : State) : Checks := [(!s.status.tdValid, .noTd)]

/-- ASM_CP, ASM_R and ASM_LEN latched, and ASM_VALID set (44_preamble_assembler.md R450). -/
def State.latchBlock (s : State) : State :=
  { s with
    results := { s.results with
      asmCp := BitVec.ofNat 16 s.opNcp
      asmR := BitVec.ofInt 16 s.opR
      asmLen := BitVec.ofInt 26 s.opAlen }
    status := { s.status with asmValid := true } }

/-- BUILD_BLOCK (44_preamble_assembler.md R450). -/
def execBuildBlock (s : State) : Host.Outcome State Fault Refusal :=
  .next (s.checked (s.tdChecks ++ s.blockChecks) fun s => .done s.latchBlock).finish

end Sys2Proof.Machine
end

