-- ==== Sys2Proof/Machine/Control.lean ====
section
/-! DEFINITION. The control family: NOP, and the illegal command (40_command_control.md). -/

namespace Sys2Proof.Machine

/-- NOP (40_command_control.md R260). -/
def execNop (s : State) : Host.Outcome State Fault Refusal := .next (s.complete .none)

/-- An ILLEGAL command (40_command_control.md R252). -/
def execIllegal (c : IllegalCause) (s : State) : Host.Outcome State Fault Refusal := .next (s.complete (illegalErr c))

end Sys2Proof.Machine
end

