-- ==== Sys2Proof/Machine/Binary32.lean ====
section
/-! DEFINITION. binary32 numbers and their addition in round to nearest, ties to even (00_scope.md R26,
30_encoding.md R231). A finite binary32 value is an integer multiple of 2^-149: `toScaled` is that integer, and
sums are formed exactly on it before one rounding. -/

namespace Sys2Proof.Machine

/-- The value of a finite binary32 pattern, times 2^149 (30_encoding.md R231): sign bit 31, biased exponent
bits [30:23], fraction bits [22:0]. -/
def toScaled (x : Half) : Int :=
  let e := x.toNat / 2 ^ 23 % 256
  let f := x.toNat % 2 ^ 23
  let mag : Nat := if e = 0 then f else (2 ^ 23 + f) * 2 ^ (e - 1)
  if x.toNat < 2 ^ 31 then (mag : Int) else -(mag : Int)

/-- RN32 of the magnitude m x 2^-149, as a pattern without sign (00_scope.md R26). Below 2^24 the magnitude is a
binary32 value and its pattern is m itself. Above, m keeps 24 bits, ties to even; a carry out of the fraction
lands in the exponent field. -/
def roundMag (m : Nat) : Nat :=
  if m < 2 ^ 24 then m
  else
    let k := Nat.log2 m - 23
    let q := m / 2 ^ k
    let r := m % 2 ^ k
    let up : Nat := if 2 ^ (k - 1) < r ∨ (r = 2 ^ (k - 1) ∧ q % 2 = 1) then 1 else 0
    k * 2 ^ 23 + q + up

/-- RN32 of n x 2^-149 (00_scope.md R26): an exact 0 rounds to +0. A magnitude past the largest finite value
gives the infinity pattern; no sum of this spec reaches it (41_sequence_generator.md R306). -/
def roundScaled (n : Int) : Half :=
  let p := min (roundMag n.natAbs) (255 * 2 ^ 23)
  BitVec.ofNat 32 (if n < 0 then 2 ^ 31 + p else p)

/-- a (+) b on binary32 (00_scope.md R26). -/
def f32Add (a b : Half) : Half := roundScaled (toScaled a + toScaled b)

/-- a (+) b on sample words, componentwise (00_scope.md R26). -/
def sampleAdd (a b : Sample) : Sample := cplx (f32Add (re a) (re b)) (f32Add (im a) (im b))

end Sys2Proof.Machine
end

