-- ==== Sys2Proof/Machine/Rom.lean ====
section
/-! DEFINITION. The twiddle ROM (41_sequence_generator.md R301): word p is
cplx(RN32(cos(2 pi p / 139)), RN32(-sin(2 pi p / 139))), generated by that rule outside Lean with 260-bit
arithmetic (log 16). -/

namespace Sys2Proof.Machine

/-- ROM[0] to ROM[19]. -/
def romPart0 : List Sample := [
  0x000000003F800000#64, 0xBD3916673F7FBD0F#64, 0xBDB8E6013F7EF45D#64, 0xBE0A700D3F7DA655#64,
  0xBE3824B33F7BD3A5#64, 0xBE65790B3F797D40#64, 0xBE892AB03F76A460#64, 0xBE9F511D3F734A82#64,
  0xBEB524383F6F7167#64, 0xBECA98973F6B1B12#64, 0xBEDFA3013F6649C7#64, 0xBEF438753F61000C#64,
  0xBF0427183F5B40A4#64, 0xBF0DECD73F550E92#64, 0xBF17685D3F4E6D12#64, 0xBF2094B43F475F9D#64,
  0xBF296D0E3F3FE9E2#64, 0xBF31ECCE3F380FC8#64, 0xBF3A0F7F3F2FD56B#64, 0xBF41D0E13F273F19#64]

/-- ROM[20] to ROM[39]. -/
def romPart1 : List Sample := [
  0xBF492CE63F1E514E#64, 0xBF501FB53F1510B7#64, 0xBF56A5AA3F0B822A#64, 0xBF5CBB5D3F01AAA7#64,
  0xBF625DA03EEF1EA7#64, 0xBF67897F3EDA6AF0#64, 0xBF6C3C463EC544FF#64, 0xBF7073813EAFB7E2#64,
  0xBF742CFA3E99CEDE#64, 0xBF7766C03E83956A#64, 0xBF7A1F223E5A2E49#64, 0xBF7C54B43E2CBFA3#64,
  0xBF7E064F3DFDED47#64, 0xBF7F330F3DA1D67C#64, 0xBF7FDA573D0AD619#64, 0xBF7FFBD1BC392588#64,
  0xBF7F9769BD6750A8#64, 0xBF7EAD56BDCFEF7A#64, 0xBF7D3E10BE15E4F0#64, 0xBF7B4A59BE4383BE#64]

/-- ROM[40] to ROM[59]. -/
def romPart2 : List Sample := [
  0xBF78D336BE70BC4C#64, 0xBF75D9F0BE8EBB79#64, 0xBF726016BEA4CE27#64, 0xBF6E677ABEBA8AA3#64,
  0xBF69F22EBECFE58F#64, 0xBF650288BEE4D3C2#64, 0xBF5F9B1DBEF94A47#64, 0xBF59BEC0BF069F36#64,
  0xBF537083BF1052E0#64, 0xBF4CB3B0BF19BB10#64, 0xBF458BCEBF22D2D9#64, 0xBF3DFC9CBF2B957A#64,
  0xBF360A0DBF33FE5F#64, 0xBF2DB84ABF3C0920#64, 0xBF250BACBF43B18B#64, 0xBF1C08BCBF4AF39C#64,
  0xBF12B432BF51CB8A#64, 0xBF0912EEBF5835BE#64, 0xBEFE53F3BF5E2EDF#64, 0xBEE9FD07BF63B3CD#64]

/-- ROM[60] to ROM[79]. -/
def romPart3 : List Sample := [
  0xBED52BBCBF68C1A4#64, 0xBEBFEAF4BF6D55C1#64, 0xBEAA45CDBF716DBE#64, 0xBE944798BF750776#64,
  0xBE7BF7AEBF782109#64, 0xBE4EDC65BF7AB8D7#64, 0xBE2154ECBF7CCD84#64, 0xBDE6F227BF7E5DFB#64,
  0xBD8AC1ADBF7F6969#64, 0xBCB92282BF7FEF43#64, 0x3CB92282BF7FEF43#64, 0x3D8AC1ADBF7F6969#64,
  0x3DE6F227BF7E5DFB#64, 0x3E2154ECBF7CCD84#64, 0x3E4EDC65BF7AB8D7#64, 0x3E7BF7AEBF782109#64,
  0x3E944798BF750776#64, 0x3EAA45CDBF716DBE#64, 0x3EBFEAF4BF6D55C1#64, 0x3ED52BBCBF68C1A4#64]

/-- ROM[80] to ROM[99]. -/
def romPart4 : List Sample := [
  0x3EE9FD07BF63B3CD#64, 0x3EFE53F3BF5E2EDF#64, 0x3F0912EEBF5835BE#64, 0x3F12B432BF51CB8A#64,
  0x3F1C08BCBF4AF39C#64, 0x3F250BACBF43B18B#64, 0x3F2DB84ABF3C0920#64, 0x3F360A0DBF33FE5F#64,
  0x3F3DFC9CBF2B957A#64, 0x3F458BCEBF22D2D9#64, 0x3F4CB3B0BF19BB10#64, 0x3F537083BF1052E0#64,
  0x3F59BEC0BF069F36#64, 0x3F5F9B1DBEF94A47#64, 0x3F650288BEE4D3C2#64, 0x3F69F22EBECFE58F#64,
  0x3F6E677ABEBA8AA3#64, 0x3F726016BEA4CE27#64, 0x3F75D9F0BE8EBB79#64, 0x3F78D336BE70BC4C#64]

/-- ROM[100] to ROM[119]. -/
def romPart5 : List Sample := [
  0x3F7B4A59BE4383BE#64, 0x3F7D3E10BE15E4F0#64, 0x3F7EAD56BDCFEF7A#64, 0x3F7F9769BD6750A8#64,
  0x3F7FFBD1BC392588#64, 0x3F7FDA573D0AD619#64, 0x3F7F330F3DA1D67C#64, 0x3F7E064F3DFDED47#64,
  0x3F7C54B43E2CBFA3#64, 0x3F7A1F223E5A2E49#64, 0x3F7766C03E83956A#64, 0x3F742CFA3E99CEDE#64,
  0x3F7073813EAFB7E2#64, 0x3F6C3C463EC544FF#64, 0x3F67897F3EDA6AF0#64, 0x3F625DA03EEF1EA7#64,
  0x3F5CBB5D3F01AAA7#64, 0x3F56A5AA3F0B822A#64, 0x3F501FB53F1510B7#64, 0x3F492CE63F1E514E#64]

/-- ROM[120] to ROM[138]. -/
def romPart6 : List Sample := [
  0x3F41D0E13F273F19#64, 0x3F3A0F7F3F2FD56B#64, 0x3F31ECCE3F380FC8#64, 0x3F296D0E3F3FE9E2#64,
  0x3F2094B43F475F9D#64, 0x3F17685D3F4E6D12#64, 0x3F0DECD73F550E92#64, 0x3F0427183F5B40A4#64,
  0x3EF438753F61000C#64, 0x3EDFA3013F6649C7#64, 0x3ECA98973F6B1B12#64, 0x3EB524383F6F7167#64,
  0x3E9F511D3F734A82#64, 0x3E892AB03F76A460#64, 0x3E65790B3F797D40#64, 0x3E3824B33F7BD3A5#64,
  0x3E0A700D3F7DA655#64, 0x3DB8E6013F7EF45D#64, 0x3D3916673F7FBD0F#64]

/-- The 139 words of the ROM. -/
def romTable : List Sample :=
  romPart0 ++ romPart1 ++ romPart2 ++ romPart3 ++ romPart4 ++ romPart5 ++ romPart6

/-- ROM[p] (41_sequence_generator.md R301). -/
def rom (p : Nat) : Sample := romTable.getD p zeroSample

end Sys2Proof.Machine
end

