-- ==== Sys2Proof/Machine/Generator.lean ====
section
/-! DEFINITION. The sequence generator: ROOT_SAMPLE, CS_SAMPLE, DFT_COEF, GEN_SET (41_sequence_generator.md). -/

namespace Sys2Proof.Machine

/-- T(n) = n(n+1)/2 (00_scope.md R21). -/
def triangular (n : Nat) : Nat := n * (n + 1) / 2

/-- The phase index phi(u, n) = (u x T(n)) mod 139 (41_sequence_generator.md R300). -/
def phase (u n : Nat) : Nat := u * triangular n % Config.seqLen

/-- The exponent of term m of coefficient k (41_sequence_generator.md R305, R306). -/
def dftPhase (u c k m : Nat) : Nat := (phase u ((m + c) % Config.seqLen) + m * k) % Config.seqLen

/-- The first n terms of dft_eval's sum, ascending from +0 (41_sequence_generator.md R306). -/
def dftPartial (u c k : Nat) : Nat → Sample
  | 0 => zeroSample
  | n + 1 => sampleAdd (dftPartial u c k n) (rom (dftPhase u c k n))

/-- dft_eval(u, C, k) (41_sequence_generator.md R306). -/
def dftEval (u c k : Nat) : Sample := dftPartial u c k Config.seqLen

/-- PSETdef[i][k] for the current NCS and ROOT_TABLE (41_sequence_generator.md R310). -/
def State.psetDef (s : State) (i k : Nat) : Sample :=
  dftEval (s.opRt (i / cardV s.opNcs)) (shiftOf s.opNcs (i % cardV s.opNcs)) k

/-- An index reduced mod 139, floored (00_scope.md R21). -/
def modSeq (n : Int) : Nat := (n % Config.seqLen).toNat

/-- The result of ROOT_SAMPLE and CS_SAMPLE: ROM[p], and Q_PHASE with PVALID = 1 (41_sequence_generator.md R311). -/
def State.setSample (p : Nat) (s : State) : State :=
  { s with results := { s.results with
      qRe := re (rom p), qIm := im (rom p), qPhase := BitVec.ofNat 8 p, qPvalid := true } }

/-- The result of DFT_COEF: the coefficient, and Q_PHASE = 0 (41_sequence_generator.md R313). -/
def State.setCoef (w : Sample) (s : State) : State :=
  { s with results := { s.results with qRe := re w, qIm := im w, qPhase := 0#8, qPvalid := false } }

/-- The range check of v (41_sequence_generator.md R312). -/
def State.shiftChecks (s : State) : Checks := [(decide (cardV s.opNcs ≤ s.opQv), .vRange)]

/-- ROOT_SAMPLE (41_sequence_generator.md R311). -/
def execRootSample (s : State) : Host.Outcome State Fault Refusal :=
  .next (Progress.done (s.setSample (phase s.opQu (modSeq s.opQn)))).finish

/-- CS_SAMPLE (41_sequence_generator.md R312). -/
def execCsSample (s : State) : Host.Outcome State Fault Refusal :=
  .next (s.checked s.shiftChecks fun s =>
    .done (s.setSample (phase s.opQu (modSeq (s.opQn + shiftOf s.opNcs s.opQv))))).finish

/-- DFT_COEF (41_sequence_generator.md R313). -/
def execDftCoef (s : State) : Host.Outcome State Fault Refusal :=
  .next (s.checked s.shiftChecks fun s =>
    .done (s.setCoef (dftEval s.opQu (shiftOf s.opNcs s.opQv) (modSeq s.opQn)))).finish

/-- PSET filled with PSETdef, and PSET_VALID set (41_sequence_generator.md R320). -/
def State.fillPset (s : State) : State :=
  { s with
    pset := fill Config.numPreambles fun i => fill Config.seqLen fun k => s.psetDef i k
    status := { s.status with psetValid := true } }

/-- GEN_SET (41_sequence_generator.md R320). -/
def execGenSet (s : State) : Host.Outcome State Fault Refusal :=
  .next (s.checked s.configChecks fun s => .done s.fillPset).finish

end Sys2Proof.Machine
end

