-- ==== Sys2Proof/Machine/Mapper.lean ====
section
/-! DEFINITION. The spectral mapper: PLACE_GRID, REORDER (42_spectral_mapper.md). -/

namespace Sys2Proof.Machine

/-- Sample k of the selected preamble: from PSET when it is current, else computed (42_spectral_mapper.md R352). -/
def State.preambleWord (s : State) (k : Nat) : Sample :=
  if s.status.psetValid then psetWord s.pset s.opIdx.toNat k else s.psetDef s.opIdx.toNat k

/-- GRID with the preamble at start and ZERO elsewhere (42_spectral_mapper.md R350, R353). -/
def State.writeGrid (s : State) : State :=
  { s with grid := fill Config.gridSize fun j =>
      if s.opStart ≤ (j : Int) ∧ (j : Int) < s.opStart + Config.seqLen
      then s.preambleWord ((j : Int) - s.opStart).toNat else zeroSample }

/-- GRID with its halves swapped (42_spectral_mapper.md R354). -/
def State.swapGrid (s : State) : State :=
  { s with grid := fill Config.gridSize fun j => word s.grid ((j + Config.gridSize / 2) % Config.gridSize) }

/-- PLACE_GRID (42_spectral_mapper.md R350). -/
def execPlaceGrid (s : State) : Host.Outcome State Fault Refusal :=
  .next (s.checked (s.indexChecks ++ s.configChecks ++ s.gridChecks) fun s => .done s.writeGrid).finish

/-- REORDER (42_spectral_mapper.md R354). -/
def execReorder (s : State) : Host.Outcome State Fault Refusal :=
  .next (Progress.done s.swapGrid).finish

end Sys2Proof.Machine
end

