-- ==== Sys2Proof/Machine/Frame.lean ====
section
/-! DEFINITION. The frame builder: COMPUTE_OFFSET, PLACE_FRAME, GENERATE (45_frame_builder.md). -/

namespace Sys2Proof.Machine

/-- FRAME_OFFSET receives off (45_frame_builder.md R500). -/
def State.storeOffset (s : State) : State :=
  { s with results := { s.results with frameOffset := BitVec.ofNat 32 s.opOffset } }

/-- COMPUTE_OFFSET (45_frame_builder.md R500). -/
def execComputeOffset (s : State) : Host.Outcome State Fault Refusal :=
  .next (s.checked s.symbolChecks fun s => .done s.storeOffset).finish

/-- The checks of PLACE_FRAME (45_frame_builder.md R510). -/
def State.placeFrameChecks (s : State) : Checks :=
  [(!s.status.asmValid, .noBlock), (decide (s.opOff < 0), .frameOffNeg)]
    ++ s.frameChecks s.opOff s.results.asmLen.toNat

/-- PLACE_FRAME (45_frame_builder.md R510): from its start, or again at its wait for frame memory. -/
def execPlaceFrame (s : State) : Host.Outcome State Fault Refusal :=
  .next (match s.stage with
    | .start => s.checked s.placeFrameChecks fun s => s.frameStage .placeFrame s.opOff
    | .engine => s.checked s.placeFrameChecks fun s => s.frameStage .placeFrame s.opOff
    | .frame => s.frameStage .placeFrame s.opOff).finish

/-- The pre-flight of GENERATE (45_frame_builder.md R520). -/
def State.generateChecks (s : State) : Checks :=
  s.indexChecks ++ s.configChecks ++ s.gridChecks ++ s.blockChecks ++ s.symbolChecks
    ++ s.frameChecks s.opOffset s.opAlen

/-- S6 of GENERATE (45_frame_builder.md R520). -/
def State.generateFrame (s : State) : Progress := s.frameStage .generate s.opOffset

/-- S3 from the engine's answer on, then S4, S5 and S6 of GENERATE (45_frame_builder.md R520). -/
def State.generateAnswer (s : State) : Progress :=
  (s.transformAnswer .generate).andThen fun s => s.latchBlock.storeOffset.generateFrame

/-- GENERATE (45_frame_builder.md R520): from its start, or again at its wait in S3 or S6. -/
def execGenerate (s : State) : Host.Outcome State Fault Refusal :=
  .next (match s.stage with
    | .start => s.checked s.generateChecks fun s => s.writeGrid.swapGrid.transformBegin.generateAnswer
    | .engine => s.generateAnswer
    | .frame => s.generateFrame).finish

end Sys2Proof.Machine
end

