-- ==== Sys2Proof/Machine/Transform.lean ====
section
/-! DEFINITION. The transform interface: TRANSFORM (43_transform_interface.md). -/

namespace Sys2Proof.Machine

/-- TRANSFORM (43_transform_interface.md R410): from its start, or again at its wait for the engine. -/
def execTransform (s : State) : Host.Outcome State Fault Refusal :=
  .next (match s.stage with
    | .start => s.transformBegin.transformAnswer .transform
    | .engine => s.transformAnswer .transform
    | .frame => s.transformBegin.transformAnswer .transform).finish

end Sys2Proof.Machine
end

