-- ==== Sys2Proof/Machine/Dispatch.lean ====
section
/-! DEFINITION. One arm per command (40_command_control.md R251). -/

namespace Sys2Proof.Machine

def exec (i : Instr) (s : State) : Host.Outcome State Fault Refusal :=
  match i with
  | .nop => Sys2Proof.Machine.execNop s
  | .rootSample => Sys2Proof.Machine.execRootSample s
  | .csSample => Sys2Proof.Machine.execCsSample s
  | .dftCoef => Sys2Proof.Machine.execDftCoef s
  | .genSet => Sys2Proof.Machine.execGenSet s
  | .placeGrid => Sys2Proof.Machine.execPlaceGrid s
  | .reorder => Sys2Proof.Machine.execReorder s
  | .transform => Sys2Proof.Machine.execTransform s
  | .buildBlock => Sys2Proof.Machine.execBuildBlock s
  | .computeOffset => Sys2Proof.Machine.execComputeOffset s
  | .placeFrame => Sys2Proof.Machine.execPlaceFrame s
  | .generate => Sys2Proof.Machine.execGenerate s

end Sys2Proof.Machine
end

