-- ==== Sys2Proof/Machine/HostPort.lean ====
section
/-! DEFINITION. The host's slave port: the address map, and what a read and a write of each register and window
does (10_state.md, 20_memory.md R150 to R166, 40_command_control.md R253, R254, R261, R262). -/

namespace Sys2Proof.Machine

/-- The registers of 10_state.md, by name. -/
inductive Register where
  | id | caps0 | caps1 | ctrl | cmd | status
  | ncs | rbCount | freqOffset | cpLen | repeatCount | samplesPerMs | slotSamples
  | frameIndex | slotIndex | startSymbol | fbBase | preambleIndex | frameOffset
  | frameLen | cardV | iLength | gridStart | asmLen | asmCp | asmR
  | qN | qU | qV | qRe | qIm | qPhase
  | rootTable (r : Nat)
  | symDur (i : Nat)
  deriving DecidableEq, Repr

/-- What lies at an offset of the host space (20_memory.md R160). -/
inductive Target where
  | register (r : Register)
  | grid (j h : Nat)
  | td (j h : Nat)
  | pset (i k h : Nat)
  | asm (i h : Nat)
  | reserved
  deriving DecidableEq, Repr

/-- The register block: the offset of each register (10_state.md R52 to R60, R100 to R127); any other offset is
reserved (R70). -/
def registerAt (o : Nat) : Target :=
  if 0x100 ≤ o ∧ o < 0x1A0 then .register (.rootTable ((o - 0x100) / 4))
  else if 0x1A0 ≤ o ∧ o < 0x1D8 then .register (.symDur ((o - 0x1A0) / 4))
  else
    match o with
    | 0x000 => .register .id
    | 0x004 => .register .caps0
    | 0x008 => .register .caps1
    | 0x010 => .register .ctrl
    | 0x014 => .register .cmd
    | 0x018 => .register .status
    | 0x020 => .register .ncs
    | 0x024 => .register .rbCount
    | 0x028 => .register .freqOffset
    | 0x02C => .register .cpLen
    | 0x030 => .register .repeatCount
    | 0x034 => .register .samplesPerMs
    | 0x038 => .register .slotSamples
    | 0x03C => .register .frameIndex
    | 0x040 => .register .slotIndex
    | 0x044 => .register .startSymbol
    | 0x048 => .register .fbBase
    | 0x04C => .register .preambleIndex
    | 0x050 => .register .frameOffset
    | 0x054 => .register .frameLen
    | 0x058 => .register .cardV
    | 0x05C => .register .iLength
    | 0x060 => .register .gridStart
    | 0x064 => .register .asmLen
    | 0x068 => .register .asmCp
    | 0x06C => .register .asmR
    | 0x070 => .register .qN
    | 0x074 => .register .qU
    | 0x078 => .register .qV
    | 0x080 => .register .qRe
    | 0x084 => .register .qIm
    | 0x088 => .register .qPhase
    | _ => .reserved

/-- The map of the host space (20_memory.md R160 to R164), for an offset that is a multiple of 4. -/
def targetAt (o : Nat) : Target :=
  if o < 0x200 then registerAt o
  else if o < 0x10000 then .reserved
  else if o < 0x12000 then .grid ((o - 0x10000) / 8) (o / 4 % 2)
  else if o < 0x14000 then .td ((o - 0x12000) / 8) (o / 4 % 2)
  else if o < 0x20000 then .reserved
  else if o < 0x40000 then .pset ((o - 0x20000) / 8 / 256) ((o - 0x20000) / 8 % 256) (o / 4 % 2)
  else if o < 0xC0000 then .asm ((o - 0x40000) / 8) (o / 4 % 2)
  else .reserved

/-- The result registers as a host sees them: while BUSY, their values from before the command
(40_command_control.md R254). -/
def State.visibleResults (s : State) : Results := if s.busy then s.shadow else s.results

/-- Reading a register (10_state.md R51 to R129). -/
def State.readRegister (s : State) : Register → Half
  | .id => Config.idValue
  | .caps0 => Config.caps0Value
  | .caps1 => 0#15 ++ bit Config.idftNorm ++ 0x4028#16
  | .ctrl => 0#30 ++ bit s.irqEn ++ 0#1
  | .cmd => s.cmd
  | .status => s.statusWord
  | .ncs => s.cfg.ncs.zeroExtend 32
  | .rbCount => s.cfg.rbCount.zeroExtend 32
  | .freqOffset => s.cfg.freqOffset.signExtend 32
  | .cpLen => s.cfg.cpLen.zeroExtend 32
  | .repeatCount => s.cfg.repeatCount.signExtend 32
  | .samplesPerMs => s.cfg.samplesPerMs.zeroExtend 32
  | .slotSamples => s.cfg.slotSamples.zeroExtend 32
  | .frameIndex => s.cfg.frameIndex.zeroExtend 32
  | .slotIndex => s.cfg.slotIndex.zeroExtend 32
  | .startSymbol => s.cfg.startSymbol.zeroExtend 32
  | .fbBase => fbBaseWord s.cfg.fbBase
  | .preambleIndex => s.cfg.preambleIndex
  | .frameOffset => s.visibleResults.frameOffset
  | .frameLen => BitVec.ofNat 32 s.opFlen
  | .cardV => BitVec.ofNat 32 (Machine.cardV s.opNcs)
  | .iLength => BitVec.ofNat 32 (Machine.iLength s.opNcs)
  | .gridStart => BitVec.ofInt 32 s.opStart
  | .asmLen => s.visibleResults.asmLen.zeroExtend 32
  | .asmCp => s.visibleResults.asmCp.zeroExtend 32
  | .asmR => s.visibleResults.asmR.zeroExtend 32
  | .qN => s.cfg.qN
  | .qU => s.cfg.qU.zeroExtend 32
  | .qV => s.cfg.qV.zeroExtend 32
  | .qRe => s.visibleResults.qRe
  | .qIm => s.visibleResults.qIm
  | .qPhase => 0#23 ++ bit s.visibleResults.qPvalid ++ s.visibleResults.qPhase
  | .rootTable r => (nth 0#8 s.cfg.rootTable r).zeroExtend 32
  | .symDur i => (nth 0#16 s.cfg.symDur i).zeroExtend 32

/-- Reading a window while not BUSY (20_memory.md R161 to R164). -/
def State.readWindow (s : State) : Target → Half
  | .grid j h => halfOf h (word s.grid j)
  | .td j h => halfOf h (word s.td j)
  | .pset i k h => if k < Config.seqLen then halfOf h (psetWord s.pset i k) else 0#32
  | .asm i h => if s.status.asmValid = true ∧ i < s.results.asmLen.toNat then halfOf h (s.asmWord i) else 0#32
  | .register _ => 0#32
  | .reserved => 0#32

/-- A legal read: a register, a reserved offset (0), or a window, which while BUSY returns any value
(20_memory.md R152, R165; 40_command_control.md R254; 70_reset_and_hazards.md R720). -/
def State.hostRead (t : Target) (s : State) : State :=
  match t with
  | .register r => { s with response := some ⟨false, s.readRegister r⟩ }
  | .reserved => { s with response := some ⟨false, 0#32⟩ }
  | t =>
    if s.busy then { s with response := some ⟨false, Config.anyHalf s.draws⟩, draws := s.draws + 1 }
    else { s with response := some ⟨false, s.readWindow t⟩ }

/-- Replace element j of a buffer or table. -/
def setNth {α : Type} {n : Nat} (d : α) (v : Vector α n) (j : Nat) (x : α) : Vector α n :=
  fill n fun i => if i = j then x else nth d v i

/-- A write of a configuration register stores the field's bits (10_state.md R51, R100 to R127). -/
def ConfigRegs.write (c : ConfigRegs) (r : Register) (data : Half) : ConfigRegs :=
  match r with
  | .ncs => { c with ncs := data.extractLsb' 0 8 }
  | .rbCount => { c with rbCount := data.extractLsb' 0 16 }
  | .freqOffset => { c with freqOffset := data.extractLsb' 0 16 }
  | .cpLen => { c with cpLen := data.extractLsb' 0 16 }
  | .repeatCount => { c with repeatCount := data.extractLsb' 0 16 }
  | .samplesPerMs => { c with samplesPerMs := data.extractLsb' 0 20 }
  | .slotSamples => { c with slotSamples := data.extractLsb' 0 20 }
  | .frameIndex => { c with frameIndex := data.extractLsb' 0 4 }
  | .slotIndex => { c with slotIndex := data.extractLsb' 0 4 }
  | .startSymbol => { c with startSymbol := data.extractLsb' 0 4 }
  | .fbBase => { c with fbBase := data.extractLsb' 3 29 }
  | .preambleIndex => { c with preambleIndex := data }
  | .qN => { c with qN := data }
  | .qU => { c with qU := data.extractLsb' 0 8 }
  | .qV => { c with qV := data.extractLsb' 0 8 }
  | .rootTable i => { c with rootTable := setNth 0#8 c.rootTable i (data.extractLsb' 0 8) }
  | .symDur i => { c with symDur := setNth 0#16 c.symDur i (data.extractLsb' 0 16) }
  | .id | .caps0 | .caps1 | .ctrl | .cmd | .status | .frameOffset | .frameLen | .cardV | .iLength
  | .gridStart | .asmLen | .asmCp | .asmR | .qRe | .qIm | .qPhase => c

/-- The writes that clear PSET_VALID: NCS and ROOT_TABLE (10_state.md R64). -/
def Register.feedsPset : Register → Bool
  | .ncs => true
  | .rootTable _ => true
  | _ => false

/-- An accepted write of a register other than CTRL and STATUS: CMD issues a command (40_command_control.md
R250), FRAME_OFFSET is a result the host may write (10_state.md R112), and the others are configuration. Writes of
RO registers are ignored (20_memory.md R152). -/
def State.writeRegister (r : Register) (data : Half) (s : State) : State :=
  match r with
  | .cmd => s.accept data
  | .frameOffset => { s with results := { s.results with frameOffset := data } }
  | r => { s with
      cfg := s.cfg.write r data
      status := { s.status with psetValid := s.status.psetValid && !r.feedsPset } }

/-- A write dropped while BUSY sets WBUSY and does nothing else (40_command_control.md R253). -/
def State.dropWrite (s : State) : State := { s with status := { s.status with wbusy := true } }

/-- The effect of a legal write (20_memory.md R152, R162; 10_state.md R55, R60; 40_command_control.md R250, R253,
R261, R262). -/
def State.hostWrite (t : Target) (data : Half) (s : State) : State :=
  match t with
  | .register .ctrl => if data.getLsbD 0 then s.doReset else { s with irqEn := data.getLsbD 1 }
  | .register .status => { s with status := s.status.writeOneToClear data }
  | .register r => if s.busy then s.dropWrite else s.writeRegister r data
  | .grid j h =>
    if s.busy then s.dropWrite else { s with grid := setNth zeroSample s.grid j (setHalf h data (word s.grid j)) }
  | .td _ _ | .pset _ _ _ | .asm _ _ | .reserved => if s.busy then s.dropWrite else s

/-- A host access at the slave port (20_memory.md R150 to R152). An illegal width or alignment gets the bus error,
returns 0 and has no effect (R151). -/
def hostAccess (a : HostAccess) (s : State) : Host.Outcome State Fault Refusal :=
  if s.resetAsserted then .refused .accessDuringReset
  else if !a.wellFormed then .next { s with response := some ⟨true, 0#32⟩ }
  else
    match a.op with
    | .read => .next (s.hostRead (targetAt a.offset.toNat))
    | .write data =>
      .next { s.hostWrite (targetAt a.offset.toNat) data with response := some ⟨false, 0#32⟩ }

end Sys2Proof.Machine
end

