-- ==== Sys2Proof/Machine/Turn.lean ====
section
/-! DEFINITION. One move of the machine: the next event from outside, or the sequencer's turn. -/

namespace Sys2Proof.Machine

/-- The sequencer's turn: the running command's rule (40_command_control.md R251). While IDLE, or while the
hardware reset is asserted, nothing moves (60_exceptions.md R635, 70_reset_and_hazards.md R700). -/
def sequencerTurn (s : State) : Host.Outcome State Fault Refusal :=
  if s.resetAsserted then .next s
  else
    match s.sequencer with
    | .idle => .next s
    | .busy (.command i) _ => exec i s
    | .busy (.illegal c) _ => execIllegal c s

/-- One event (20_memory.md R178, 70_reset_and_hazards.md R734). -/
def handle (e : Event) (s : State) : Host.Outcome State Fault Refusal :=
  match e with
  | .host a => hostAccess a s
  | .agentWrite addr b => agentWrite addr b s
  | .agentRead addr => agentRead addr s
  | .resetLine asserted => resetLine asserted s
  | .sequencer => sequencerTurn s

/-- One move: the event at the head of the list; with none left, the sequencer's turn (log 2). -/
def advance (s : State) : Host.Outcome State Fault Refusal :=
  match s.events with
  | [] => sequencerTurn s
  | e :: rest => handle e { s with events := rest }

/-- The state in which the next move runs the command word: accepted, the sequencer at its start, and the turn the
sequencer's (log 19). -/
def State.fetchWord (s : State) (nbits w : Nat) : State :=
  { s.accept (BitVec.ofNat 32 (w % 2 ^ nbits)) with
    resetAsserted := false
    events := match s.events with
      | [] => []
      | e :: rest => .sequencer :: e :: rest }

end Sys2Proof.Machine
end

