-- ==== Sys2Proof/Machine/Step.lean ====
section
/-! DEFINITION. One step of the machine, and the placing of a command for the next step. -/

namespace Sys2Proof.Machine

/-- One step: the next event, or the sequencer's turn (`advance`). -/
def step (s : State) : Host.Outcome State Fault Refusal := advance s

/-- ZCPG fetches nothing: a command is a write to CMD (10_state.md R135, 20_memory.md R181). So the word is placed
as that write leaves it, accepted and about to run (log 19). -/
def State.withFetchWord (s : State) (nbits w : Nat) : State := s.fetchWord nbits w

end Sys2Proof.Machine
end

