-- ==== Sys2Proof/Safety.lean ====
section
/-! DEFINITION. The terms claims are stated in: the completion record and the errors of each command, the looks at the
external agents, the frame, what a reset leaves, accesses by offset, the values of binary32 patterns, and the
invariant of the machine's states. -/

namespace Sys2Proof.Machine

/-! ### Terms of the spec, written again from its tables -/

/-- The state a command leaves that changed nothing but the completion record (40_command_control.md R256). -/
def State.withRecord (code : BitVec 3) (detail : BitVec 8) (s : State) : State :=
  { s with
    status := { s.status with errCode := code, errDetail := detail, done := true }
    sequencer := .idle
    issued := 0
    outstanding := 0 }

/-- The detail config_check reports for each N_cs, 0 where it passes (41_sequence_generator.md R303). -/
def configDetail (ncs : Nat) : BitVec 8 :=
  if ncs = 0 ∨ 139 < ncs then 0x02#8
  else if (16 ≤ ncs ∧ ncs ≤ 17) ∨ (28 ≤ ncs ∧ ncs ≤ 34) ∨ (47 ≤ ncs ∧ ncs ≤ 69) then 0x00#8
  else if 70 ≤ ncs then 0x04#8
  else 0x03#8

/-- The opcode map (30_encoding.md R205): OPC and command. -/
def opcodeMap : List (BitVec 8 × Instr) :=
  [(0x00#8, .nop), (0x01#8, .rootSample), (0x02#8, .csSample), (0x03#8, .dftCoef), (0x04#8, .genSet),
   (0x10#8, .placeGrid), (0x11#8, .reorder), (0x20#8, .transform), (0x30#8, .buildBlock),
   (0x40#8, .computeOffset), (0x41#8, .placeFrame), (0x50#8, .generate)]

/-- ERR_CODE and ERR_DETAIL as a completion writes them (60_exceptions.md R600, R602). -/
abbrev Record := BitVec 3 × BitVec 8

/-- The record of a command that succeeded. -/
abbrev Record.success : Record := (0#3, 0x00#8)

/-- The errors each command can report (60_exceptions.md R602, columns `detail`, `ERR_CODE`, `raised by`). -/
def raises : Instr → List Record
  | .nop => []
  | .rootSample => []
  | .csSample => [(1#3, 0x05#8)]
  | .dftCoef => [(1#3, 0x05#8)]
  | .genSet => [(1#3, 0x02#8), (1#3, 0x03#8), (1#3, 0x04#8)]
  | .placeGrid => [(1#3, 0x01#8), (1#3, 0x02#8), (1#3, 0x03#8), (1#3, 0x04#8), (2#3, 0x10#8), (2#3, 0x11#8)]
  | .reorder => []
  | .transform => [(3#3, 0x20#8)]
  | .buildBlock => [(1#3, 0x06#8), (1#3, 0x07#8), (1#3, 0x08#8)]
  | .computeOffset => [(1#3, 0x09#8)]
  | .placeFrame => [(1#3, 0x0A#8), (2#3, 0x12#8), (2#3, 0x13#8), (2#3, 0x14#8), (5#3, 0x40#8)]
  | .generate =>
    [(1#3, 0x01#8), (1#3, 0x02#8), (1#3, 0x03#8), (1#3, 0x04#8), (2#3, 0x10#8), (2#3, 0x11#8), (1#3, 0x07#8),
     (1#3, 0x08#8), (1#3, 0x09#8), (2#3, 0x13#8), (2#3, 0x14#8), (3#3, 0x20#8), (5#3, 0x40#8)]

/-- What the checks of PLACE_GRID report, in their order (42_spectral_mapper.md R350). -/
def State.placeGridRecord (s : State) : Record :=
  if s.cfg.preambleIndex.toInt < 0 ∨ 64 ≤ s.cfg.preambleIndex.toInt then (1#3, 0x01#8)
  else if configDetail s.cfg.ncs.toNat ≠ 0#8 then (1#3, configDetail s.cfg.ncs.toNat)
  else if s.opStart < 0 then (2#3, 0x10#8)
  else if 1024 < s.opStart + 139 then (2#3, 0x11#8)
  else .success

/-- What the checks of BUILD_BLOCK report on its operands, in their order (44_preamble_assembler.md R450). -/
def State.blockRecord (s : State) : Record :=
  if 1024 < s.cfg.cpLen.toNat then (1#3, 0x07#8)
  else if s.cfg.repeatCount.toInt < 1 then (1#3, 0x08#8)
  else .success

/-- What the checks of PLACE_FRAME report, in their order (45_frame_builder.md R510). -/
def State.placeFrameRecord (s : State) : Record :=
  if s.status.asmValid = false then (1#3, 0x0A#8)
  else if s.results.frameOffset.toInt < 0 then (2#3, 0x12#8)
  else if (10 * s.cfg.samplesPerMs.toNat : Int) < s.results.frameOffset.toInt + s.results.asmLen.toNat then
    (2#3, 0x13#8)
  else if 2 ^ 32 < s.opFb + 8 * (10 * s.cfg.samplesPerMs.toNat) then (2#3, 0x14#8)
  else .success

/-- What the pre-flight of GENERATE reports, in its order (45_frame_builder.md R520). -/
def State.generateRecord (s : State) : Record :=
  if s.placeGridRecord ≠ .success then s.placeGridRecord
  else if s.blockRecord ≠ .success then s.blockRecord
  else if 13 < s.cfg.startSymbol.toNat then (1#3, 0x09#8)
  else if (10 * s.cfg.samplesPerMs.toNat : Int)
      < s.opOffset + (s.cfg.cpLen.toNat + s.cfg.repeatCount.toInt * 1024) then (2#3, 0x13#8)
  else if 2 ^ 32 < s.opFb + 8 * (10 * s.cfg.samplesPerMs.toNat) then (2#3, 0x14#8)
  else .success

/-- Sample k of the preamble PREAMBLE_INDEX selects (42_spectral_mapper.md R350, 41_sequence_generator.md R310). -/
def State.selectedSample (s : State) (k : Nat) : Sample :=
  let i := s.cfg.preambleIndex.toNat
  let card := 139 / s.cfg.ncs.toNat
  if s.status.psetValid then psetWord s.pset i k
  else dftEval (s.opRt (i / card)) (i % card * s.cfg.ncs.toNat % 139) k

/-- Word j of the grid PLACE_GRID writes (42_spectral_mapper.md R350). -/
def State.placedWord (s : State) (j : Nat) : Sample :=
  if s.opStart ≤ (j : Int) ∧ (j : Int) < s.opStart + 139 then s.selectedSample ((j : Int) - s.opStart).toNat
  else 0#64

/-- The engine's answer `a` at a look, with the answers `l` and the draw count `d` it leaves: the scripted answer, a
free one where none is scripted, or again none (43_transform_interface.md R401, log 3). -/
def State.EngineLook (s : State) (a : EngineAnswer) (l : List EngineAnswer) (d : Nat) : Prop :=
  (a ≠ .never ∧ s.engine = a :: l ∧ d = s.draws) ∨
  (a = .never ∧ s.engine.head? = some .never ∧ l = s.engine ∧ d = s.draws) ∨
  (s.engine = [] ∧ a = Config.engineDraw s.draws ∧ l = [] ∧ d = s.draws + 1)

/-- A frame answer with a write that is never answered. -/
def frameStuck : FrameAnswer → Bool
  | .okay => false
  | .error _ => false
  | .notYet _ _ => false
  | .never _ _ => true

/-- Frame memory's answer `a` at a look, with the answers `l` and the draw count `d` it leaves (20_memory.md R174,
log 5). -/
def State.FrameLook (s : State) (a : FrameAnswer) (l : List FrameAnswer) (d : Nat) : Prop :=
  (frameStuck a = false ∧ s.frameAnswers = a :: l ∧ d = s.draws) ∨
  (frameStuck a = true ∧ s.frameAnswers.head? = some a ∧ l = s.frameAnswers ∧ d = s.draws) ∨
  (s.frameAnswers = [] ∧ a = Config.frameDraw s.draws ∧ l = [] ∧ d = s.draws + 1)

/-- A byte address outside the frame region FB_BASE .. FB_BASE + 8 x FRAME_LEN - 1 (20_memory.md R177). -/
abbrev State.outsideFrame (s : State) (x : Nat) : Prop :=
  ¬(s.opFb ≤ x ∧ x < s.opFb + 8 * (10 * s.cfg.samplesPerMs.toNat))

/-- Byte b of frame word j of a frame with the block at `off` (45_frame_builder.md R511, 44_preamble_assembler.md
R455, 20_memory.md R171). -/
def State.frameByte (s : State) (off : Int) (j b : Nat) : Byte :=
  let w : Sample :=
    if off ≤ (j : Int) ∧ (j : Int) < off + s.results.asmLen.toNat then
      word s.td (((j : Int) - off - s.results.asmCp.toNat) % 1024).toNat
    else 0#64
  w.extractLsb' (8 * b) 8

/-- Frame memory `m` after the writes of a frame whose words below `good` were answered OKAY: those words as the
pseudocode gives them unless another agent raced, no byte of the region without a value, and nothing outside the
region changed (45_frame_builder.md R510, R511; 20_memory.md R177). -/
structure State.FrameWritten (s : State) (off : Int) (good : Nat) (m : Memory) : Prop where
  words : s.raced = false → ∀ j < good, ∀ b < 8, memRead m (s.opFb + 8 * j + b) = some (s.frameByte off j b)
  region : ∀ x, ¬s.outsideFrame x → ∃ v, memRead m x = some v
  outside : ∀ x, s.outsideFrame x → memRead m x = memRead s.mem x

/-- What the frame stage of command `i` answers from `s` when frame memory's answer is `a` (45_frame_builder.md R510,
20_memory.md R176). -/
def State.FrameOutcome (s : State) (i : Instr) (off : Int) (a : FrameAnswer) (l : List FrameAnswer) (d : Nat)
    (out : Host.Outcome State Fault Refusal) : Prop :=
  let flen := 10 * s.cfg.samplesPerMs.toNat
  let good : Prop := ∃ m, s.FrameWritten off flen m ∧
    out = .next (State.withRecord 0#3 0x00#8
      { s with mem := m, frameAnswers := l, draws := d + 1, status := { s.status with frameValid := true } })
  let wait : Prop := ∃ m n o,
    out = .next { s with
      mem := m, frameAnswers := l, draws := d + 1, sequencer := .busy (.command i) .frame, issued := n
      outstanding := o } ∧
    (∀ x, s.outsideFrame x → memRead m x = memRead s.mem x) ∧ (n = 0 → m = s.mem) ∧ s.issued ≤ n
      ∧ (n ≤ s.issued ∨ n ≤ flen) ∧ (n = flen → 1 ≤ o)
  match a with
  | .okay => good
  | .error je =>
    if je < flen then ∃ m, s.FrameWritten off je m ∧
      out = .next (State.withRecord 5#3 0x40#8 { s with mem := m, frameAnswers := l, draws := d + 1 })
    else good
  | .notYet _ _ => wait
  | .never _ _ => wait

/-- What a reset leaves, `t`, of the state `s` (10_state.md R140, 70_reset_and_hazards.md R701, R703). -/
structure State.AfterReset (s t : State) : Prop where
  status : t.statusWord = 0#32
  registers : ∀ o, 0x00C ≤ o → o < 0x200 → o % 4 = 0 →
    (t.hostRead (targetAt o)).response = some ⟨false, if o = 0x060 then 512#32 else 0#32⟩
  constants : ∀ o, o < 0x00C → (t.hostRead (targetAt o)).response = (s.hostRead (targetAt o)).response
  idle : t.sequencer = .idle
  interrupt : t.irq = false
  writes : t.issued = 0 ∧ t.outstanding = 0
  needConfiguration : ∀ i, i = .genSet ∨ i = .placeGrid ∨ i = .generate →
    exec i t = .next (t.withRecord 1#3 0x02#8)
  needBlock : exec .buildBlock t = .next (t.withRecord 1#3 0x06#8) ∧
    exec .placeFrame t = .next (t.withRecord 1#3 0x0A#8)
  memory : s.issued = 0 → t.mem = s.mem
  memoryOutside : ∀ x, s.outsideFrame x → memRead t.mem x = memRead s.mem x

/-- A 32-bit write at a byte offset. -/
def writeAt (o : Nat) (data : Half) : HostAccess := ⟨.w32, BitVec.ofNat 20 o, .write data⟩

/-- A 32-bit read at a byte offset. -/
def readAt (o : Nat) : HostAccess := ⟨.w32, BitVec.ofNat 20 o, .read⟩

/-- The OKAY response, with the data of a read; a write's data is 0 by the model's choice (log 20). -/
def okay (data : Half) : Option Response := some ⟨false, data⟩

/-- The offsets a legal access finds nothing at (10_state.md R70, 20_memory.md R160). -/
abbrev reservedOffset (o : Nat) : Prop :=
  o = 0x00C ∨ o = 0x01C ∨ o = 0x07C ∨ (0x08C ≤ o ∧ o ≤ 0x0FC) ∨ (0x1D8 ≤ o ∧ o ≤ 0x1FC)
    ∨ (0x00200 ≤ o ∧ o ≤ 0x0FFFF) ∨ (0x14000 ≤ o ∧ o ≤ 0x1FFFF) ∨ (0xC0000 ≤ o ∧ o ≤ 0xFFFFF)

/-- The offsets of the read-only registers and windows (10_state.md R52 to R54, R113 to R119, R123 to R125,
20_memory.md R160). -/
abbrev readOnlyOffset (o : Nat) : Prop :=
  o = 0x000 ∨ o = 0x004 ∨ o = 0x008 ∨ (0x054 ≤ o ∧ o ≤ 0x06C) ∨ (0x080 ≤ o ∧ o ≤ 0x088)
    ∨ (0x12000 ≤ o ∧ o ≤ 0x13FFF) ∨ (0x20000 ≤ o ∧ o ≤ 0x3FFFF) ∨ (0x40000 ≤ o ∧ o ≤ 0xBFFFF)

/-- What a configuration or argument register reads back after a write of `data`, by offset (10_state.md R100 to
R112, R120 to R122, R126, R127); none for the offsets of other registers. -/
def fieldRead (o : Nat) (data : Half) : Option Half :=
  if o = 0x020 ∨ o = 0x074 ∨ o = 0x078 ∨ (0x100 ≤ o ∧ o ≤ 0x19C) then some (data &&& 0x000000FF#32)
  else if o = 0x024 ∨ o = 0x02C ∨ (0x1A0 ≤ o ∧ o ≤ 0x1D4) then some (data &&& 0x0000FFFF#32)
  else if o = 0x028 ∨ o = 0x030 then some ((data.setWidth 16).signExtend 32)
  else if o = 0x034 ∨ o = 0x038 then some (data &&& 0x000FFFFF#32)
  else if o = 0x03C ∨ o = 0x040 ∨ o = 0x044 then some (data &&& 0x0000000F#32)
  else if o = 0x048 then some (data &&& 0xFFFFFFF8#32)
  else if o = 0x04C ∨ o = 0x050 ∨ o = 0x070 then some data
  else none

/-- The configuration registers `c'` after a write of `data` at offset `o` over `c`: the register at `o` holds the field
of `data` it keeps, every other one what it held (10_state.md R100 to R111, R120 to R122, R126, R127). -/
structure ConfigRegs.WrittenAt (o : Nat) (data : Half) (c c' : ConfigRegs) : Prop where
  ncs : c'.ncs = if o = 0x020 then data.extractLsb' 0 8 else c.ncs
  rbCount : c'.rbCount = if o = 0x024 then data.extractLsb' 0 16 else c.rbCount
  freqOffset : c'.freqOffset = if o = 0x028 then data.extractLsb' 0 16 else c.freqOffset
  cpLen : c'.cpLen = if o = 0x02C then data.extractLsb' 0 16 else c.cpLen
  repeatCount : c'.repeatCount = if o = 0x030 then data.extractLsb' 0 16 else c.repeatCount
  samplesPerMs : c'.samplesPerMs = if o = 0x034 then data.extractLsb' 0 20 else c.samplesPerMs
  slotSamples : c'.slotSamples = if o = 0x038 then data.extractLsb' 0 20 else c.slotSamples
  frameIndex : c'.frameIndex = if o = 0x03C then data.extractLsb' 0 4 else c.frameIndex
  slotIndex : c'.slotIndex = if o = 0x040 then data.extractLsb' 0 4 else c.slotIndex
  startSymbol : c'.startSymbol = if o = 0x044 then data.extractLsb' 0 4 else c.startSymbol
  fbBase : c'.fbBase = if o = 0x048 then data.extractLsb' 3 29 else c.fbBase
  preambleIndex : c'.preambleIndex = if o = 0x04C then data else c.preambleIndex
  qN : c'.qN = if o = 0x070 then data else c.qN
  qU : c'.qU = if o = 0x074 then data.extractLsb' 0 8 else c.qU
  qV : c'.qV = if o = 0x078 then data.extractLsb' 0 8 else c.qV
  rootTable : ∀ r < 40,
    nth 0#8 c'.rootTable r = if o = 0x100 + 4 * r then data.extractLsb' 0 8 else nth 0#8 c.rootTable r
  symDur : ∀ i < 14,
    nth 0#16 c'.symDur i = if o = 0x1A0 + 4 * i then data.extractLsb' 0 16 else nth 0#16 c.symDur i

/-- What a configuration or argument register other than FRAME_OFFSET reads when the configuration is `c`, by offset
(10_state.md R51, R100 to R111, R120 to R122, R126, R127); none for the offsets of other registers. -/
def configRead (o : Nat) (c : ConfigRegs) : Option Half :=
  if o = 0x020 then some (c.ncs.setWidth 32)
  else if o = 0x024 then some (c.rbCount.setWidth 32)
  else if o = 0x028 then some (c.freqOffset.signExtend 32)
  else if o = 0x02C then some (c.cpLen.setWidth 32)
  else if o = 0x030 then some (c.repeatCount.signExtend 32)
  else if o = 0x034 then some (c.samplesPerMs.setWidth 32)
  else if o = 0x038 then some (c.slotSamples.setWidth 32)
  else if o = 0x03C then some (c.frameIndex.setWidth 32)
  else if o = 0x040 then some (c.slotIndex.setWidth 32)
  else if o = 0x044 then some (c.startSymbol.setWidth 32)
  else if o = 0x048 then some (BitVec.ofNat 32 (8 * c.fbBase.toNat))
  else if o = 0x04C then some c.preambleIndex
  else if o = 0x070 then some c.qN
  else if o = 0x074 then some (c.qU.setWidth 32)
  else if o = 0x078 then some (c.qV.setWidth 32)
  else if 0x100 ≤ o ∧ o ≤ 0x19C ∧ o % 4 = 0 then some ((nth 0#8 c.rootTable ((o - 0x100) / 4)).setWidth 32)
  else if 0x1A0 ≤ o ∧ o ≤ 0x1D4 ∧ o % 4 = 0 then some ((nth 0#16 c.symDur ((o - 0x1A0) / 4)).setWidth 32)
  else none

/-- What a result register reads when the results a host sees are `r`, by offset: Q_PHASE shows PHASE in bits [7:0]
and PVALID in bit [8] (10_state.md R112, R117 to R119, R123 to R125); none for the offsets of other registers. -/
def resultRead (o : Nat) (r : Results) : Option Half :=
  if o = 0x050 then some r.frameOffset
  else if o = 0x064 then some (r.asmLen.setWidth 32)
  else if o = 0x068 then some (r.asmCp.setWidth 32)
  else if o = 0x06C then some (r.asmR.setWidth 32)
  else if o = 0x080 then some r.qRe
  else if o = 0x084 then some r.qIm
  else if o = 0x088 then some (BitVec.ofNat 32 (r.qPhase.toNat + if r.qPvalid then 0x100 else 0))
  else none

/-- The offsets whose reads follow other registers: STATUS and the derived registers (10_state.md R60, R129). -/
abbrev followsOthers (o : Nat) : Prop := o = 0x018 ∨ o = 0x054 ∨ o = 0x058 ∨ o = 0x05C ∨ o = 0x060

/-- A finite binary32 pattern: the exponent field is not all ones (30_encoding.md R231). -/
abbrev finite32 (x : Half) : Prop := x.toNat / 2 ^ 23 % 256 ≠ 255

/-- The real value of a finite binary32 pattern (30_encoding.md R231). -/
noncomputable def value32 (x : Half) : ℝ := (toScaled x : ℝ) / 2 ^ 149

/-- x is RN32(r): a finite binary32 value at least as near to r as every other, the even one of two as near, and
+0 for an exact 0 (00_scope.md R26). -/
def IsRN32 (x : Half) (r : ℝ) : Prop :=
  finite32 x ∧ (r = 0 → x = 0#32) ∧
    ∀ y : Half, finite32 y → toScaled y ≠ toScaled x →
      |value32 x - r| < |value32 y - r| ∨ (|value32 x - r| = |value32 y - r| ∧ x.getLsbD 0 = false)

/-- y_{u,v}(k) for the shift C (41_sequence_generator.md R300, R304, R305), in the complex numbers. -/
noncomputable def dftExact (u c k : Nat) : ℂ :=
  ∑ m ∈ Finset.range 139,
    Complex.exp (-(Complex.I * Real.pi * u * (((m + c) % 139 : ℕ) : ℂ) * ((((m + c) % 139 : ℕ) : ℂ) + 1) / 139))
      * Complex.exp (-(2 * Complex.I * Real.pi * m * k / 139))

/-- The next step at `s` is the sequencer's turn, and finds `s'`: no event is to come, or the one at the head gives it
the turn (logs 1, 2). -/
def State.Turn (s s' : State) : Prop :=
  (s.events = [] ∧ s' = s) ∨ ∃ rest, s.events = .sequencer :: rest ∧ s' = { s with events := rest }

/-- Nothing the outside brings is a reset: no write of CTRL with bit 0 set, and no change of the reset line. -/
def Event.isReset : Event → Bool
  | .host a =>
    match a.op with
    | .read => false
    | .write data => a.offset == 0x010#20 && data.getLsbD 0
  | .agentWrite _ _ => false
  | .agentRead _ => false
  | .resetLine _ => true
  | .sequencer => false

/-! ### The invariant -/

/-- While a command runs: the sequencer holds the decoding of CMD, LAST_OPC its low byte, and DONE is clear
(10_state.md R61, R62, R69; 40_command_control.md R250). -/
def State.RunningOk (s : State) : Prop :=
  ∀ c st, s.sequencer = .busy c st →
    c = decode s.cmd ∧ s.status.lastOpc = s.cmd.extractLsb' 0 8 ∧ s.status.done = false

/-- Where the sequencer can be, and what holds there. The engine port is held exactly in the engine stage (10_state.md
R68), both validity flags are clear there (43_transform_interface.md R410), frame writes are outstanding only in
the frame stage (20_memory.md R176), and a command past its checks has passed them (40_command_control.md R257).
That a read of STATUS shows both flags set while GENERATE waits in the frame stage is log 26. -/
def State.StageOk (s : State) : Prop :=
  match s.sequencer with
  | .idle => s.status.engHeld = false ∧ s.issued = 0 ∧ s.outstanding = 0
  | .busy _ .start => s.status.engHeld = false ∧ s.issued = 0 ∧ s.outstanding = 0
  | .busy c .engine =>
    s.status.engHeld = true ∧ s.status.tdValid = false ∧ s.status.asmValid = false ∧ s.issued = 0
      ∧ s.outstanding = 0
      ∧ (c = .command .transform ∨ (c = .command .generate ∧ firstError s.generateChecks = none))
  | .busy c .frame =>
    s.status.engHeld = false ∧ s.status.asmValid = true ∧ s.outstanding ≤ s.issued ∧ s.issued ≤ s.opFlen
      ∧ ((c = .command .placeFrame ∧ firstError s.placeFrameChecks = none)
        ∨ (c = .command .generate ∧ firstError s.generateChecks = none))

/-- While ASM_VALID = 1, TD is valid and the latches describe a block (10_state.md R66, R117 to R119;
44_preamble_assembler.md R450). -/
def State.BlockOk (s : State) : Prop :=
  s.status.asmValid = true →
    s.status.tdValid = true ∧ s.results.asmCp.toNat ≤ 1024 ∧ 1 ≤ s.results.asmR.toNat
      ∧ s.results.asmR.toNat ≤ 32767
      ∧ s.results.asmLen.toNat = s.results.asmCp.toNat + s.results.asmR.toNat * 1024

/-- While PSET_VALID = 1, the configuration is legal and PSET holds its preamble set (10_state.md R64). -/
def State.PsetOk (s : State) : Prop :=
  s.status.psetValid = true →
    firstError s.configChecks = none ∧ ∀ i < 64, ∀ k < 139, psetWord s.pset i k = s.psetDef i k

/-- ERR_CODE and ERR_DETAIL are a row of the table (60_exceptions.md R600, R602). -/
def State.RecordOk (s : State) : Prop :=
  ∃ e : Err, s.status.errCode = e.code ∧ s.status.errDetail = e.detail

/-- FRAME_VALID is clear while a frame command is in progress (10_state.md R67). -/
def State.FrameFlagOk (s : State) : Prop := s.frameInProgress = true → s.status.frameValid = false

/-- The invariant of every reachable state. -/
structure State.Inv (s : State) : Prop where
  memory : s.mem.wf = true
  running : s.RunningOk
  stage : s.StageOk
  block : s.BlockOk
  pset : s.PsetOk
  record : s.RecordOk
  frameFlag : s.FrameFlagOk
  inReset : s.resetAsserted = true → s.sequencer = .idle

end Sys2Proof.Machine
end

