-- ==== Sys2Proof/Certificates/Slice0/Obligations.lean ====
section
/-! DEFINITION. The statements about ZCPG for the provers, in the order of spec/: decoding, reset and the invariant,
the host port, the command lifecycle, the generator's arithmetic, each command, the external agents. A host write's
response carries data 0 throughout, as `okay` has it: the model's choice (log 20). -/

open Sys2Proof Sys2Proof.Machine

/-! ### Decoding -/

/-- 30_encoding.md R206: the reserved bits are tested first, then OPC against the map of R205; every word decodes. -/
def Obligations.DecodeFollowsTheOpcodeMap : Prop :=
  ∀ w : Half,
    (w.extractLsb' 8 24 ≠ 0#24 → decode w = .illegal .rsvdBits) ∧
    (w.extractLsb' 8 24 = 0#24 → decode w =
      match opcodeMap.find? fun row => row.1 == w.extractLsb' 0 8 with
      | some row => .command row.2
      | none => .illegal .opcUnknown)

/-- Decoding and encoding agree on every word and every command; the legal words are the words that encode a
command (30_encoding.md R205, R206). -/
def Obligations.DecodeEncodeAgree : Prop :=
  (∀ (w : Half) (i : Instr), decode w = .command i ↔ w = encode i) ∧
    ∀ w : Half, wordWellFormed w = true ↔ ∃ i, w = encode i

/-- Some words of 30_encoding.md R205 to R207 and what they decode to. -/
def Obligations.SampleWordsDecode : Prop :=
  decode 0x00000000#32 = .command .nop ∧ decode 0x00000003#32 = .command .dftCoef ∧
    decode 0x00000011#32 = .command .reorder ∧ decode 0x00000020#32 = .command .transform ∧
    decode 0x00000030#32 = .command .buildBlock ∧ decode 0x00000041#32 = .command .placeFrame ∧
    decode 0x00000042#32 = .illegal .opcUnknown ∧ decode 0x00000150#32 = .illegal .rsvdBits ∧
    decode 0x80000005#32 = .illegal .rsvdBits

/-! ### Reset and the invariant -/

/-- 10_state.md R140: what a soft reset (in any state) and a hardware reset leave. -/
def Obligations.ResetsGiveTheResetState : Prop :=
  (∀ (s : State) (data : Half), s.resetAsserted = false → data.getLsbD 0 = true →
    ∃ t, hostAccess (writeAt 0x010 data) s = .next t ∧ s.AfterReset t) ∧
  ∀ s : State, ∃ t, resetLine true s = .next t ∧ s.AfterReset t ∧ t.resetAsserted = true

/-- The invariant holds after reset. -/
def Obligations.ResetSatisfiesTheInvariant : Prop := State.Inv State.reset

/-- Every step keeps the invariant (`State.Inv`). -/
def Obligations.StepKeepsTheInvariant : Prop :=
  ∀ s t : State, s.Inv → step s = .next t → t.Inv

/-! ### The step -/

/-- A step in the sequencer's turn runs the decoded command: while a command runs, from a command word placed by
`withFetchWord`, and from a write of CMD (10_state.md R135, 40_command_control.md R251). While IDLE, or while the
hardware reset is asserted, such a step changes nothing (60_exceptions.md R635, 70_reset_and_hazards.md R700). A step
with an event from outside at the head of the list is that event at the state without it (20_memory.md R178,
70_reset_and_hazards.md R734). That the outside is a list of events, that an empty one is the sequencer's turn, and
what `withFetchWord` places, are the model's choices (logs 1, 2, 19). -/
def Obligations.StepRunsTheDecodedCommand : Prop :=
  (∀ (s s' : State) (i : Instr) (st : Stage), s.Turn s' → s.resetAsserted = false →
    s.sequencer = .busy (.command i) st → step s = exec i s') ∧
  (∀ (s s' : State) (c : IllegalCause) (st : Stage), s.Turn s' → s.resetAsserted = false →
    s.sequencer = .busy (.illegal c) st → step s = execIllegal c s') ∧
  (∀ s s' : State, s.Turn s' → s.busy = false ∨ s.resetAsserted = true → step s = .next s') ∧
  (∀ (s : State) (w : Half) (i : Instr), decode w = .command i →
    step (s.withFetchWord 32 w.toNat) = exec i { s.accept w with resetAsserted := false }) ∧
  (∀ (s : State) (w : Half) (i : Instr), decode w = .command i → s.resetAsserted = false → s.busy = false →
    s.events = [.host (writeAt 0x014 w)] →
    ∃ t, step s = .next t ∧ t = { s.accept w with events := [], response := okay 0#32 } ∧ step t = exec i t) ∧
  ∀ (s : State) (rest : List Event),
    (∀ a, s.events = .host a :: rest → step s = hostAccess a { s with events := rest }) ∧
    (∀ addr b, s.events = .agentWrite addr b :: rest → step s = agentWrite addr b { s with events := rest }) ∧
    (∀ addr, s.events = .agentRead addr :: rest → step s = agentRead addr { s with events := rest }) ∧
    ∀ asserted, s.events = .resetLine asserted :: rest → step s = resetLine asserted { s with events := rest }

/-- A step stops only for what comes from outside: a host access during the hardware reset, or another agent's read
of a byte nothing has written. Both stops are the model's choice (logs 12 and 14). -/
def Obligations.StepStopsOnlyForTheOutside : Prop :=
  ∀ s : State,
    (∃ t, step s = .next t) ∨
    (step s = .refused .accessDuringReset ∧ s.resetAsserted = true ∧ ∃ a rest, s.events = .host a :: rest) ∨
    (step s = .fault .unwrittenFrameByte ∧
      ∃ a rest, s.events = .agentRead a :: rest ∧ memRead s.mem a.toNat = none)

/-! ### The host port -/

/-- An 8-bit or 16-bit access, or one at an offset that is not a multiple of 4: the bus error, with the data 0 of a read
(20_memory.md R151). That a write's response carries data 0 too is the model's choice (log 20). -/
def Obligations.IllegalAccessGetsTheBusError : Prop :=
  ∀ (s : State) (a : HostAccess), s.resetAsserted = false → a.width ≠ .w32 ∨ a.offset.toNat % 4 ≠ 0 →
    hostAccess a s = .next { s with response := some ⟨true, 0#32⟩ }

/-- 20_memory.md R152, 10_state.md R70: reserved offsets read 0 and ignore writes; read-only registers and windows
ignore writes. -/
def Obligations.ReservedAndReadOnlyOffsets : Prop :=
  ∀ (s : State) (o : Nat) (data : Half), s.resetAsserted = false → o < 2 ^ 20 → o % 4 = 0 →
    (reservedOffset o → hostAccess (readAt o) s = .next { s with response := okay 0#32 }) ∧
      (reservedOffset o ∨ readOnlyOffset o → s.busy = false →
        hostAccess (writeAt o data) s = .next { s with response := okay 0#32 })

/-- 10_state.md R52, R53, R54: the identification and capability registers, in every state; writes of them are
ignored. -/
def Obligations.IdentificationRegisters : Prop :=
  ∀ s : State, s.resetAsserted = false →
    (s.busy = false → ∀ (data : Half), ∀ o, o = 0x000 ∨ o = 0x004 ∨ o = 0x008 →
      hostAccess (writeAt o data) s = .next { s with response := okay 0#32 }) ∧
    hostAccess (readAt 0x000) s = .next { s with response := okay 0x5A430001#32 } ∧
      hostAccess (readAt 0x004) s = .next { s with response := okay 0x008B0400#32 } ∧
      hostAccess (readAt 0x008) s =
        .next { s with response := okay (if Config.idftNorm then 0x00014028#32 else 0x00004028#32) }

/-- Every read is answered OKAY and changes nothing but the answer and the count of free values drawn; outside a
window read while BUSY it draws none, and reading again gives the same (20_memory.md R154). -/
def Obligations.ReadsHaveNoSideEffect : Prop :=
  ∀ (s : State) (o : Nat), s.resetAsserted = false → o < 2 ^ 20 → o % 4 = 0 →
    ∃ t v, hostAccess (readAt o) s = .next t ∧ t = { s with response := okay v, draws := t.draws } ∧
      (s.busy = false ∨ o < 0x10000 → t.draws = s.draws ∧ hostAccess (readAt o) t = .next t)

/-- A configuration or argument register reads back the written field, zero- or sign-extended, and nothing of the
state changes but that register, PSET_VALID and the answer (10_state.md R51, R64, R100 to R112, R120 to R122, R126,
R127). -/
def Obligations.ConfigurationReadsBack : Prop :=
  ∀ (s : State) (o : Nat) (data v : Half), s.resetAsserted = false → s.busy = false → o % 4 = 0 →
    fieldRead o data = some v →
    ∃ t u, hostAccess (writeAt o data) s = .next t ∧ hostAccess (readAt o) t = .next u ∧ u.response = okay v ∧
      s.cfg.WrittenAt o data t.cfg ∧
      t = { s with
        cfg := t.cfg
        results := { s.results with frameOffset := if o = 0x050 then data else s.results.frameOffset }
        status := { s.status with
          psetValid := s.status.psetValid && !decide (o = 0x020 ∨ (0x100 ≤ o ∧ o ≤ 0x19C)) }
        response := okay 0#32 }

/-- Such a write leaves what every other register reads, but for STATUS and the derived registers, and clears
PSET_VALID exactly for NCS and ROOT_TABLE (10_state.md R64, R100, R126, R129). -/
def Obligations.ConfigurationWriteFrame : Prop :=
  ∀ (s t : State) (o : Nat) (data v : Half), s.busy = false → o % 4 = 0 → fieldRead o data = some v →
    hostAccess (writeAt o data) s = .next t →
    (∀ o', o' < 0x200 → o' % 4 = 0 → o' ≠ o → ¬followsOthers o' →
      (t.hostRead (targetAt o')).response = (s.hostRead (targetAt o')).response) ∧
      (o = 0x020 ∨ (0x100 ≤ o ∧ o ≤ 0x19C) → t.status.psetValid = false) ∧
      (¬(o = 0x020 ∨ (0x100 ≤ o ∧ o ≤ 0x19C)) → t.status.psetValid = s.status.psetValid)

/-- 10_state.md R113 to R116: the derived registers, computed exactly from the current registers, their values after
reset, and that a write of them is ignored. -/
def Obligations.DerivedRegisters : Prop :=
  (∀ s : State, ∃ flen card ilen start : Half,
    (s.hostRead (targetAt 0x054)).response = okay flen ∧ flen.toNat = 10 * s.cfg.samplesPerMs.toNat ∧
      (s.hostRead (targetAt 0x058)).response = okay card ∧
      card.toNat = (if s.cfg.ncs.toNat = 0 then 0 else 139 / s.cfg.ncs.toNat) ∧
      (s.hostRead (targetAt 0x05C)).response = okay ilen ∧
      ilen.toNat = (if card.toNat = 0 then 0 else 64 / card.toNat) ∧
      (s.hostRead (targetAt 0x060)).response = okay start ∧
      start.toInt = (1024 - 12 * (s.cfg.rbCount.toNat : Int)) / 2 + s.cfg.freqOffset.toInt) ∧
  (∀ (s : State) (o : Nat) (data : Half), s.resetAsserted = false → s.busy = false →
    o = 0x054 ∨ o = 0x058 ∨ o = 0x05C ∨ o = 0x060 →
    hostAccess (writeAt o data) s = .next { s with response := okay 0#32 }) ∧
  (State.reset.hostRead (targetAt 0x054)).response = okay 0#32 ∧
    (State.reset.hostRead (targetAt 0x058)).response = okay 0#32 ∧
    (State.reset.hostRead (targetAt 0x05C)).response = okay 0#32 ∧
    (State.reset.hostRead (targetAt 0x060)).response = okay 512#32

/-- The fields of STATUS, 0 after reset, and the bits a write of it clears, BUSY or not (10_state.md R60). That it shows
the flags GENERATE has set before it completes is the model's choice (log 26). -/
def Obligations.StatusRegister : Prop :=
  (State.reset.hostRead (targetAt 0x018)).response = okay 0#32 ∧ ∀ s : State,
    (∃ v : Half, (s.hostRead (targetAt 0x018)).response = okay v ∧
      v.getLsbD 0 = s.busy ∧ v.getLsbD 1 = s.status.done ∧ v.getLsbD 2 = s.status.wbusy ∧
      v.getLsbD 3 = s.status.psetValid ∧ v.getLsbD 4 = s.status.tdValid ∧ v.getLsbD 5 = s.status.asmValid ∧
      v.getLsbD 6 = s.status.frameValid ∧ v.getLsbD 7 = s.status.engHeld ∧
      v.extractLsb' 8 3 = s.status.errCode ∧ v.extractLsb' 11 5 = 0#5 ∧
      v.extractLsb' 16 8 = s.status.errDetail ∧ v.extractLsb' 24 8 = s.status.lastOpc) ∧
    ∀ data : Half, s.resetAsserted = false → hostAccess (writeAt 0x018 data) s = .next { s with
      status := { s.status with
        done := if data.getLsbD 1 then false else s.status.done
        wbusy := if data.getLsbD 2 then false else s.status.wbusy }
      response := okay 0#32 }

/-- 40_command_control.md R262, 10_state.md R55: a write of CTRL with bit 0 clear, in every state; what CTRL reads; and
a write with bit 0 set, which is a soft reset. -/
def Obligations.ControlWriteSetsIrqEnable : Prop :=
  ∀ s : State, s.resetAsserted = false →
    hostAccess (readAt 0x010) s = .next { s with response := okay (if s.irqEn then 0x2#32 else 0x0#32) } ∧
    (∀ data : Half, data.getLsbD 0 = false → ∃ t, hostAccess (writeAt 0x010 data) s = .next t ∧
      t = { s with irqEn := data.getLsbD 1, response := okay 0#32 } ∧
      hostAccess (readAt 0x010) t = .next { t with response := okay (data &&& 0x2#32) }) ∧
    ∀ data : Half, data.getLsbD 0 = true → ∃ t, hostAccess (writeAt 0x010 data) s = .next t ∧ s.AfterReset t ∧
      hostAccess (readAt 0x010) t = .next { t with response := okay 0#32 }

/-- 60_exceptions.md R620: the interrupt output, what raises it and what clears it. -/
def Obligations.InterruptOutput : Prop :=
  (∀ s : State, s.irq = (s.irqEn && s.status.done)) ∧
  (∀ (i : Instr) (s t : State), exec i s = .next t → t.sequencer = .idle → t.irq = s.irqEn) ∧
  (∀ (c : IllegalCause) (s : State), ∃ t, execIllegal c s = .next t ∧ t.irq = s.irqEn) ∧
  (∀ s : State, s.resetAsserted = false →
    (∃ t, hostAccess (writeAt 0x018 0x2#32) s = .next t ∧ t.irq = false) ∧
    (∃ t, hostAccess (writeAt 0x010 0x0#32) s = .next t ∧ t.irq = false) ∧
    (∃ t, hostAccess (writeAt 0x010 0x2#32) s = .next t ∧ t.irq = s.status.done) ∧
    (∃ t, hostAccess (writeAt 0x010 0x1#32) s = .next t ∧ t.irq = false) ∧
    ∀ w, s.busy = false → ∃ t, hostAccess (writeAt 0x014 w) s = .next t ∧ t.irq = false) ∧
  ∀ s : State, ∃ t, resetLine true s = .next t ∧ t.irq = false

/-- 20_memory.md R162, R166: the GRID window reads a half and writes a half, and a write changes GRID alone. -/
def Obligations.GridWindow : Prop :=
  ∀ (s : State) (j h : Nat) (data : Half), s.resetAsserted = false → s.busy = false → j < 1024 → h < 2 →
    hostAccess (readAt (0x10000 + 8 * j + 4 * h)) s =
      .next { s with response := okay ((word s.grid j).extractLsb' (32 * h) 32) } ∧
    ∃ g, hostAccess (writeAt (0x10000 + 8 * j + 4 * h) data) s =
        .next { s with grid := g, response := okay 0#32 } ∧
      (word g j).extractLsb' (32 * h) 32 = data ∧
      (word g j).extractLsb' (32 * (1 - h)) 32 = (word s.grid j).extractLsb' (32 * (1 - h)) 32 ∧
      ∀ j' < 1024, j' ≠ j → word g j' = word s.grid j'

/-- The PSET and TD windows read the halves of their words, and ignore writes (20_memory.md R161, R163). -/
def Obligations.PsetAndTdWindows : Prop :=
  ∀ (s : State) (h : Nat) (data : Half), s.resetAsserted = false → s.busy = false → h < 2 →
    (∀ i < 64, ∀ k < 256,
      hostAccess (readAt (0x20000 + 8 * (256 * i + k) + 4 * h)) s = .next { s with
        response := okay (if k < 139 then (psetWord s.pset i k).extractLsb' (32 * h) 32 else 0#32) } ∧
      hostAccess (writeAt (0x20000 + 8 * (256 * i + k) + 4 * h) data) s =
        .next { s with response := okay 0#32 }) ∧
    ∀ j < 1024,
      hostAccess (readAt (0x12000 + 8 * j + 4 * h)) s =
        .next { s with response := okay ((word s.td j).extractLsb' (32 * h) 32) } ∧
      hostAccess (writeAt (0x12000 + 8 * j + 4 * h) data) s = .next { s with response := okay 0#32 }

/-- 20_memory.md R164, 44_preamble_assembler.md R455: the ASM window, read only. -/
def Obligations.AsmWindow : Prop :=
  ∀ (s : State) (i h : Nat) (data : Half), s.resetAsserted = false → s.busy = false → i < 65536 → h < 2 →
    hostAccess (readAt (0x40000 + 8 * i + 4 * h)) s = .next { s with
      response := okay (
        if s.status.asmValid = true ∧ i < s.results.asmLen.toNat then
          (word s.td (((i : Int) - s.results.asmCp.toNat) % 1024).toNat).extractLsb' (32 * h) 32
        else 0#32) } ∧
    hostAccess (writeAt (0x40000 + 8 * i + 4 * h) data) s = .next { s with response := okay 0#32 }

/-! ### The command lifecycle -/

/-- 40_command_control.md R250, 10_state.md R56: the acceptance step, and no acceptance while BUSY; CMD reads the last
accepted word, which nothing but an acceptance or a reset changes, and 0 after a reset. -/
def Obligations.CommandAcceptance : Prop :=
  (∀ (s : State) (w : Half), s.resetAsserted = false →
    (s.busy = false → ∃ t, hostAccess (writeAt 0x014 w) s = .next t ∧ t = { s with
      cmd := w
      status := { s.status with
        lastOpc := w.extractLsb' 0 8
        done := false
        frameValid :=
          if decode w = .command .placeFrame ∨ decode w = .command .generate then false else s.status.frameValid }
      sequencer := .busy (decode w) .start
      shadow := t.shadow
      raced := t.raced
      response := okay 0#32 } ∧
      hostAccess (readAt 0x014) t = .next { t with response := okay w }) ∧
    (s.busy = true → hostAccess (writeAt 0x014 w) s =
      .next { s with status := { s.status with wbusy := true }, response := okay 0#32 })) ∧
  (∀ s : State, s.resetAsserted = false → hostAccess (readAt 0x014) s = .next { s with response := okay s.cmd }) ∧
  (∀ s t : State, step s = .next t → t.cmd ≠ s.cmd →
    (∃ w rest, s.events = .host (writeAt 0x014 w) :: rest ∧ s.busy = false ∧ t.cmd = w) ∨
      ∃ e rest, s.events = e :: rest ∧ e.isReset = true ∧ t.cmd = 0#32) ∧
  (∀ (s : State) (data : Half), s.resetAsserted = false → data.getLsbD 0 = true →
    ∃ t, hostAccess (writeAt 0x010 data) s = .next t ∧ t.cmd = 0#32) ∧
  ∀ s : State, ∃ t, resetLine true s = .next t ∧ t.cmd = 0#32

/-- 40_command_control.md R252: an illegal command word, in every state. -/
def Obligations.IllegalCommand : Prop :=
  ∀ (s : State) (c : IllegalCause),
    execIllegal c s = .next (s.withRecord 4#3 (match c with
      | .rsvdBits => 0x31#8
      | .opcUnknown => 0x30#8))

/-- 40_command_control.md R253: host writes while a command runs; the bus error of an illegal access in its last clause
is 20_memory.md R151's, with the data 0 of log 20 for a write. -/
def Obligations.WritesWhileBusy : Prop :=
  ∀ s : State, s.resetAsserted = false → s.busy = true →
    (∀ (o : Nat) (data : Half), o < 2 ^ 20 → o % 4 = 0 → o ≠ 0x010 → o ≠ 0x018 → hostAccess (writeAt o data) s =
      .next { s with status := { s.status with wbusy := true }, response := okay 0#32 }) ∧
    (∀ data : Half, data.getLsbD 0 = false → hostAccess (writeAt 0x010 data) s =
      .next { s with irqEn := data.getLsbD 1, response := okay 0#32 }) ∧
    (∀ data : Half, data.getLsbD 0 = true → ∃ t, hostAccess (writeAt 0x010 data) s = .next t ∧ s.AfterReset t) ∧
    (∀ data : Half, hostAccess (writeAt 0x018 data) s = .next { s with
      status := { s.status with
        done := if data.getLsbD 1 then false else s.status.done
        wbusy := if data.getLsbD 2 then false else s.status.wbusy }
      response := okay 0#32 }) ∧
    ∀ a : HostAccess, a.width ≠ .w32 ∨ a.offset.toNat % 4 ≠ 0 →
      hostAccess a s = .next { s with response := some ⟨true, 0#32⟩ }

/-- While a command runs, the result registers read what they held when it was accepted, through every step of it,
and the configuration registers their values; while none runs, both read what they hold (40_command_control.md R254,
R255; 10_state.md R112, R117 to R119, R123 to R125). That GENERATE's own results are not shown before it completes is
log 9. -/
def Obligations.ResultRegistersWhileBusy : Prop :=
  (∀ (s : State) (w : Half), (s.accept w).shadow = s.results) ∧
  (∀ (i : Instr) (s t : State), exec i s = .next t → t.shadow = s.shadow ∧ t.cfg = s.cfg) ∧
  ∀ (s : State) (o : Nat) (v : Half),
    resultRead o (if s.busy then s.shadow else s.results) = some v ∨ configRead o s.cfg = some v →
    s.hostRead (targetAt o) = { s with response := okay v } ∧
      (s.resetAsserted = false → hostAccess (readAt o) s = .next { s with response := okay v })

/-- Every command answers a next state in every state (60_exceptions.md R609), and all but TRANSFORM, PLACE_FRAME and
GENERATE complete in it, whatever the external agents do (70_reset_and_hazards.md R731). -/
def Obligations.EveryCommandAnswers : Prop :=
  ∀ (i : Instr) (s : State), ∃ t, exec i s = .next t ∧
    (i ≠ .transform → i ≠ .placeFrame → i ≠ .generate →
      t.sequencer = .idle ∧ t.busy = false ∧ t.status.done = true)

/-- 60_exceptions.md R602: the records each command can complete with. -/
def Obligations.CompletionRecords : Prop :=
  ∀ (i : Instr) (s t : State), exec i s = .next t → t.sequencer = .idle →
    t.status.done = true ∧ (t.status.errCode, t.status.errDetail) ∈ Record.success :: raises i

/-- A command that ends in INVALID_ARGUMENT or OUT_OF_RANGE has changed nothing but the completion record
(40_command_control.md R257, 45_frame_builder.md R521). -/
def Obligations.OperandErrorsChangeNothing : Prop :=
  ∀ (i : Instr) (s t : State), exec i s = .next t → t.sequencer = .idle →
    t.status.errCode = 1#3 ∨ t.status.errCode = 2#3 →
    t = s.withRecord t.status.errCode t.status.errDetail

/-- What each command leaves unchanged (10_state.md R128, R130 to R132; each command's Writes line). -/
def Obligations.CommandFrames : Prop :=
  ∀ (i : Instr) (s t : State), exec i s = .next t →
    (t.cfg = s.cfg ∧ t.irqEn = s.irqEn ∧ t.cmd = s.cmd ∧ t.status.lastOpc = s.status.lastOpc ∧
      t.status.wbusy = s.status.wbusy ∧ t.raced = s.raced ∧ t.resetAsserted = s.resetAsserted ∧
      t.events = s.events ∧ t.response = s.response ∧ t.agentResponse = s.agentResponse) ∧
    (i ≠ .genSet → t.pset = s.pset ∧ t.status.psetValid = s.status.psetValid) ∧
    (i ≠ .placeGrid → i ≠ .reorder → i ≠ .generate → t.grid = s.grid) ∧
    (i ≠ .transform → i ≠ .generate →
      t.td = s.td ∧ t.status.tdValid = s.status.tdValid ∧ t.status.engHeld = s.status.engHeld ∧
        t.engine = s.engine) ∧
    (i ≠ .transform → i ≠ .buildBlock → i ≠ .generate → t.status.asmValid = s.status.asmValid) ∧
    (i ≠ .buildBlock → i ≠ .generate →
      t.results.asmCp = s.results.asmCp ∧ t.results.asmR = s.results.asmR ∧ t.results.asmLen = s.results.asmLen) ∧
    (i ≠ .computeOffset → i ≠ .generate → t.results.frameOffset = s.results.frameOffset) ∧
    (i ≠ .rootSample → i ≠ .csSample → i ≠ .dftCoef →
      t.results.qRe = s.results.qRe ∧ t.results.qIm = s.results.qIm ∧ t.results.qPhase = s.results.qPhase ∧
        t.results.qPvalid = s.results.qPvalid) ∧
    (i ≠ .placeFrame → i ≠ .generate →
      t.mem = s.mem ∧ t.status.frameValid = s.status.frameValid ∧ t.frameAnswers = s.frameAnswers) ∧
    ∀ x, s.outsideFrame x → memRead t.mem x = memRead s.mem x

/-- 40_command_control.md R260: NOP. -/
def Obligations.NopCompletes : Prop :=
  decode 0x00000000#32 = .command .nop ∧
    ∀ s : State, (s.accept 0x00000000#32).status.lastOpc = 0x00#8 ∧ exec .nop s = .next (s.withRecord 0#3 0x00#8)

/-! ### The sequence generator's arithmetic -/

/-- 41_sequence_generator.md R300: the phase index gives the Zadoff-Chu root sample at every integer, lies in
[0, 139), and depends only on u and n mod 139. -/
def Obligations.PhaseIsTheRootSequence : Prop :=
  ∀ (u : Nat) (n : Int),
    Complex.exp (-(Complex.I * Real.pi * u * n * (n + 1) / 139)) =
      Complex.exp (-(Complex.I * 2 * Real.pi / 139)) ^ phase u (modSeq n) ∧
    phase u (modSeq n) < 139 ∧ (phase u (modSeq n) : Int) = (u * (n * (n + 1) / 2)) % 139 ∧
    phase (u % 139) (modSeq n) = phase u (modSeq n) ∧ modSeq (n + 139) = modSeq n

/-- 41_sequence_generator.md R301: every ROM entry is the correctly rounded W^p, within 2^-25 of it, and no subnormal;
entry 0 is cplx(1.0, +0.0). -/
def Obligations.RomIsCorrectlyRounded : Prop :=
  rom 0 = 0x000000003F800000#64 ∧
    ∀ p < 139,
      IsRN32 (re (rom p)) (Real.cos (2 * Real.pi * p / 139)) ∧
        IsRN32 (im (rom p)) (-Real.sin (2 * Real.pi * p / 139)) ∧
        |value32 (re (rom p)) - Real.cos (2 * Real.pi * p / 139)| ≤ 1 / 2 ^ 25 ∧
        |value32 (im (rom p)) + Real.sin (2 * Real.pi * p / 139)| ≤ 1 / 2 ^ 25 ∧
        ∀ x : Half, x = re (rom p) ∨ x = im (rom p) → x.toNat / 2 ^ 23 % 256 = 0 → x = 0#32

/-- The addition of finite binary32 values rounds their exact sum to nearest even, componentwise on sample words
(00_scope.md R26). That an exact sum of 0 is +0 for two negative zeros too is the model's choice (log 15). -/
def Obligations.AdditionRoundsToNearestEven : Prop :=
  (∀ a b : Half, finite32 a → finite32 b → |value32 a + value32 b| < 2 ^ 8 →
    IsRN32 (f32Add a b) (value32 a + value32 b)) ∧
  ∀ a b : Sample,
    re (sampleAdd a b) = f32Add (re a) (re b) ∧ im (sampleAdd a b) = f32Add (im a) (im b)

/-- 41_sequence_generator.md R306: dft_eval is the sum of its 139 terms in ascending order from +0, and depends on u
only mod 139. -/
def Obligations.DftEvalSumsInOrder : Prop :=
  ∀ u c k : Nat,
    dftEval u c k = (List.range 139).foldl
      (fun acc m => sampleAdd acc (rom ((u * ((m + c) % 139 * ((m + c) % 139 + 1) / 2) % 139 + m * k) % 139)))
      0#64 ∧
    dftEval (u % 139) c k = dftEval u c k

/-- Every component of every partial sum is finite, at most its number of terms in magnitude, and no subnormal
(41_sequence_generator.md R306, 30_encoding.md R231). -/
def Obligations.PartialSumsStayNormal : Prop :=
  ∀ u c k n : Nat, n ≤ 139 → ∀ x : Half, x = re (dftPartial u c k n) ∨ x = im (dftPartial u c k n) →
    finite32 x ∧ |value32 x| ≤ n ∧ (x.toNat / 2 ^ 23 % 256 = 0 → x = 0#32)

/-- dft_eval differs from the exact transform by at most 2^-9 in each component (41_sequence_generator.md R307). -/
def Obligations.DftEvalIsAccurate : Prop :=
  ∀ u c k : Nat, u < 256 → c < 139 → k < 139 →
    |value32 (re (dftEval u c k)) - (dftExact u c k).re| ≤ 1 / 2 ^ 9 ∧
      |value32 (im (dftEval u c k)) - (dftExact u c k).im| ≤ 1 / 2 ^ 9

/-- Every ROM entry has magnitude 1 within 2^-23 (41_sequence_generator.md R308). -/
def Obligations.RootSamplesHaveUnitMagnitude : Prop :=
  ∀ p < 139, |Real.sqrt (value32 (re (rom p)) ^ 2 + value32 (im (rom p)) ^ 2) - 1| < 1 / 2 ^ 23

/-- The exact coefficients have magnitude sqrt(139) when 139 does not divide u, and dft_eval then has no ZERO sample;
when it does, coefficient 0 is 139 and the others 0 (41_sequence_generator.md R308). -/
def Obligations.CoefficientMagnitudes : Prop :=
  ∀ u c k : Nat, u < 256 → c < 139 → k < 139 →
    (u % 139 ≠ 0 → ‖dftExact u c k‖ = Real.sqrt 139 ∧ dftEval u c k ≠ 0#64) ∧
      (u % 139 = 0 → dftExact u c k = if k = 0 then 139 else 0)

/-! ### The sequence generator -/

/-- 41_sequence_generator.md R311: ROOT_SAMPLE. -/
def Obligations.RootSampleResult : Prop :=
  decode 0x00000001#32 = .command .rootSample ∧ ∀ s : State,
    let n := (s.cfg.qN.toInt % 139).toNat
    let p := s.cfg.qU.toNat * (n * (n + 1) / 2) % 139
    exec .rootSample s = .next (State.withRecord 0#3 0x00#8 { s with results := { s.results with
      qRe := (rom p).extractLsb' 0 32, qIm := (rom p).extractLsb' 32 32, qPhase := BitVec.ofNat 8 p
      qPvalid := true } })

/-- 41_sequence_generator.md R312: CS_SAMPLE. -/
def Obligations.CsSampleResult : Prop :=
  decode 0x00000002#32 = .command .csSample ∧ ∀ s : State,
    let c := s.cfg.qV.toNat * s.cfg.ncs.toNat % 139
    let n := ((s.cfg.qN.toInt + c) % 139).toNat
    let p := s.cfg.qU.toNat * (n * (n + 1) / 2) % 139
    if s.cfg.ncs.toNat = 0 ∨ 139 / s.cfg.ncs.toNat ≤ s.cfg.qV.toNat then
      exec .csSample s = .next (s.withRecord 1#3 0x05#8)
    else
      exec .csSample s = .next (State.withRecord 0#3 0x00#8 { s with results := { s.results with
        qRe := (rom p).extractLsb' 0 32, qIm := (rom p).extractLsb' 32 32, qPhase := BitVec.ofNat 8 p
        qPvalid := true } })

/-- 41_sequence_generator.md R313: DFT_COEF. -/
def Obligations.DftCoefResult : Prop :=
  decode 0x00000003#32 = .command .dftCoef ∧ ∀ s : State,
    let w := dftEval s.cfg.qU.toNat (s.cfg.qV.toNat * s.cfg.ncs.toNat % 139) (s.cfg.qN.toInt % 139).toNat
    if s.cfg.ncs.toNat = 0 ∨ 139 / s.cfg.ncs.toNat ≤ s.cfg.qV.toNat then
      exec .dftCoef s = .next (s.withRecord 1#3 0x05#8)
    else
      exec .dftCoef s = .next (State.withRecord 0#3 0x00#8 { s with results := { s.results with
        qRe := w.extractLsb' 0 32, qIm := w.extractLsb' 32 32, qPhase := 0#8, qPvalid := false } })

/-- 41_sequence_generator.md R303: config_check over every N_cs. -/
def Obligations.ConfigCheckTable : Prop :=
  ∀ s : State,
    (configDetail s.cfg.ncs.toNat = 0#8 → firstError s.configChecks = none ∧
      cardV s.cfg.ncs.toNat * iLength s.cfg.ncs.toNat = 64 ∧ iLength s.cfg.ncs.toNat ≤ 40 ∧
      cardV s.cfg.ncs.toNat = if s.cfg.ncs.toNat ≤ 17 then 8 else if s.cfg.ncs.toNat ≤ 34 then 4 else 2) ∧
    (configDetail s.cfg.ncs.toNat ≠ 0#8 →
      ∃ e, firstError s.configChecks = some e ∧ e.code = 1#3 ∧ e.detail = configDetail s.cfg.ncs.toNat)

/-- 41_sequence_generator.md R320, R310: GEN_SET, which cannot fail while a valid PSET is current. -/
def Obligations.GenSetResult : Prop :=
  decode 0x00000004#32 = .command .genSet ∧ ∀ s : State,
    (s.PsetOk → s.status.psetValid = true → configDetail s.cfg.ncs.toNat = 0#8) ∧
    (configDetail s.cfg.ncs.toNat ≠ 0#8 →
      exec .genSet s = .next (s.withRecord 1#3 (configDetail s.cfg.ncs.toNat))) ∧
    (configDetail s.cfg.ncs.toNat = 0#8 → ∃ p,
      exec .genSet s = .next (State.withRecord 0#3 0x00#8
        { s with pset := p, status := { s.status with psetValid := true } }) ∧
      ∀ i < 64, ∀ k < 139,
        let card := 139 / s.cfg.ncs.toNat
        psetWord p i k =
          dftEval (nth 0#8 s.cfg.rootTable (i / card)).toNat (i % card * s.cfg.ncs.toNat % 139) k)

/-! ### The spectral mapper -/

/-- 42_spectral_mapper.md R350, R353: PLACE_GRID. -/
def Obligations.PlaceGridResult : Prop :=
  decode 0x00000010#32 = .command .placeGrid ∧ ∀ s : State,
    (s.placeGridRecord ≠ .success →
      exec .placeGrid s = .next (s.withRecord s.placeGridRecord.1 s.placeGridRecord.2)) ∧
    (s.placeGridRecord = .success → ∃ g,
      exec .placeGrid s = .next (State.withRecord 0#3 0x00#8 { s with grid := g }) ∧
      ∀ j < 1024, word g j = s.placedWord j)

/-- PLACE_GRID and GENERATE do the same whether PSET is valid or not, when a valid PSET is current
(42_spectral_mapper.md R352, 20_memory.md R182). -/
def Obligations.CacheChangesNoResult : Prop :=
  ∀ (i : Instr) (s t : State), i = .placeGrid ∨ i = .generate → s.PsetOk → exec i s = .next t →
    exec i { s with status := { s.status with psetValid := false } } =
      .next { t with status := { t.status with psetValid := false } }

/-- 42_spectral_mapper.md R354: REORDER. -/
def Obligations.ReorderResult : Prop :=
  decode 0x00000011#32 = .command .reorder ∧ ∀ s : State, ∃ g,
    exec .reorder s = .next (State.withRecord 0#3 0x00#8 { s with grid := g }) ∧
      ∀ j < 1024, word g j = word s.grid ((j + 512) % 1024)

/-- 42_spectral_mapper.md R355: REORDER is its own inverse. -/
def Obligations.ReorderIsAnInvolution : Prop :=
  ∀ s : State, ∃ t u, exec .reorder s = .next t ∧ exec .reorder t = .next u ∧ u.grid = s.grid

/-! ### The transform interface -/

/-- 43_transform_interface.md R410, for each answer of the engine, from the start of TRANSFORM and from its wait. That
the answers are a list with free draws, and a wait a position, are the model's choices (logs 2, 3). -/
def Obligations.TransformResult : Prop :=
  decode 0x00000020#32 = .command .transform ∧
  ∀ (s : State) (a : EngineAnswer) (l : List EngineAnswer) (d : Nat), s.stage ≠ .frame →
    (s.stage = .engine → s.status.tdValid = false ∧ s.status.asmValid = false ∧ s.status.engHeld = true) →
    s.EngineLook a l d →
    match a with
    | .success => exec .transform s = .next (State.withRecord 0#3 0x00#8 { s with
        engine := l, draws := d, td := Config.engineF s.grid
        status := { s.status with tdValid := true, asmValid := false, engHeld := false } })
    | .fail => ∃ td, exec .transform s = .next (State.withRecord 3#3 0x20#8 { s with
        engine := l, draws := d + 1, td := td
        status := { s.status with tdValid := false, asmValid := false, engHeld := false } })
    | .notYet => exec .transform s = .next { s with
        engine := l, draws := d, sequencer := .busy (.command .transform) .engine
        status := { s.status with tdValid := false, asmValid := false, engHeld := true } }
    | .never => exec .transform s = .next { s with
        engine := l, draws := d, sequencer := .busy (.command .transform) .engine
        status := { s.status with tdValid := false, asmValid := false, engHeld := true } }

/-- A command that waits for an answer that never comes is still running, with no completion, after any number of
steps in which nothing from outside is a reset or a read of frame memory by another agent; and a soft reset then ends it
(70_reset_and_hazards.md R732, 43_transform_interface.md R408). The waits and the scripted answers are the model's
choices (logs 2, 3, 5). -/
def Obligations.HangEndsOnlyByReset : Prop :=
  ∀ (s : State) (i : Instr) (st : Stage), s.resetAsserted = false → s.status.done = false →
    s.sequencer = .busy (.command i) st →
    ((i = .transform ∨ i = .generate) ∧ st = .engine ∧ s.engine.head? = some .never) ∨
      ((i = .placeFrame ∨ i = .generate) ∧ st = .frame ∧ ∃ n o, s.frameAnswers.head? = some (.never n o)) →
    (∀ e ∈ s.events, e.isReset = false ∧ ∀ a, e ≠ .agentRead a) →
    ∀ k : Nat, ∃ t : State, Host.Core.run core k s = .next t ∧ t.busy = true ∧ t.status.done = false ∧
      t.sequencer = s.sequencer ∧
      ∃ u, hostAccess (writeAt 0x010 0x1#32) t = .next u ∧ u.busy = false ∧ u.status.engHeld = false

/-! ### The preamble assembler -/

/-- 44_preamble_assembler.md R450: BUILD_BLOCK. -/
def Obligations.BuildBlockResult : Prop :=
  decode 0x00000030#32 = .command .buildBlock ∧ ∀ s : State,
    if s.status.tdValid = false then exec .buildBlock s = .next (s.withRecord 1#3 0x06#8)
    else if 1024 < s.cfg.cpLen.toNat then exec .buildBlock s = .next (s.withRecord 1#3 0x07#8)
    else if s.cfg.repeatCount.toInt < 1 then exec .buildBlock s = .next (s.withRecord 1#3 0x08#8)
    else ∃ r : Results,
      exec .buildBlock s = .next (State.withRecord 0#3 0x00#8
        { s with results := r, status := { s.status with asmValid := true } }) ∧
      r = { s.results with asmCp := r.asmCp, asmR := r.asmR, asmLen := r.asmLen } ∧
      r.asmCp.toNat = s.cfg.cpLen.toNat ∧ (r.asmR.toNat : Int) = s.cfg.repeatCount.toInt ∧
      (r.asmLen.toNat : Int) = s.cfg.cpLen.toNat + s.cfg.repeatCount.toInt * 1024

/-- 44_preamble_assembler.md R455: the assembled view is the last ASM_CP words of TD and then ASM_R copies of it. -/
def Obligations.AssembledView : Prop :=
  ∀ s : State, s.BlockOk → s.status.asmValid = true →
    (∀ i : Nat, s.asmWord i = word s.td (((i : Int) - s.results.asmCp.toNat) % 1024).toNat) ∧
    (∀ i < s.results.asmCp.toNat, s.asmWord i = word s.td (1024 - s.results.asmCp.toNat + i)) ∧
    (∀ q < s.results.asmR.toNat, ∀ t < 1024,
      s.results.asmCp.toNat + 1024 * q + t < s.results.asmLen.toNat ∧
        s.asmWord (s.results.asmCp.toNat + 1024 * q + t) = word s.td t)

/-! ### The frame builder -/

/-- 45_frame_builder.md R500: COMPUTE_OFFSET. -/
def Obligations.ComputeOffsetResult : Prop :=
  decode 0x00000040#32 = .command .computeOffset ∧ ∀ s : State,
    if 13 < s.cfg.startSymbol.toNat then exec .computeOffset s = .next (s.withRecord 1#3 0x09#8)
    else ∃ off : Half,
      exec .computeOffset s = .next (State.withRecord 0#3 0x00#8
        { s with results := { s.results with frameOffset := off } }) ∧
      off.toInt ≤ 32309205 ∧
      off.toInt = (s.cfg.frameIndex.toNat * s.cfg.samplesPerMs.toNat + s.cfg.slotIndex.toNat * s.cfg.slotSamples.toNat
        + ∑ i ∈ Finset.range s.cfg.startSymbol.toNat, (nth 0#16 s.cfg.symDur i).toNat : Nat)

/-- PLACE_FRAME: its operand errors change nothing but the record; past its checks, from its start and from its wait,
it does what each answer of frame memory gives (45_frame_builder.md R510, R511; 20_memory.md R171 to R173, R176). How
the answers are summarised and what a race leaves are the model's choices (logs 5, 13). -/
def Obligations.PlaceFrameResult : Prop :=
  decode 0x00000041#32 = .command .placeFrame ∧
  (∀ s : State, s.stage = .start → s.placeFrameRecord ≠ .success →
    exec .placeFrame s = .next (s.withRecord s.placeFrameRecord.1 s.placeFrameRecord.2)) ∧
  ∀ (s : State) (a : FrameAnswer) (l : List FrameAnswer) (d : Nat), s.placeFrameRecord = .success →
    s.FrameLook a l d → s.FrameOutcome .placeFrame s.results.frameOffset.toInt a l d (exec .placeFrame s)

/-- The pre-flight of GENERATE (45_frame_builder.md R520): an error changes nothing but the record. -/
def Obligations.GeneratePreflight : Prop :=
  ∀ s : State, s.stage = .start → s.generateRecord ≠ .success →
    exec .generate s = .next (s.withRecord s.generateRecord.1 s.generateRecord.2)

/-- GENERATE past its pre-flight: S1 to S3 for each answer of the engine, then S4 to S6 for each answer of frame
memory (45_frame_builder.md R520). The form of the answers, and that STATUS shows TD_VALID and ASM_VALID set while it
waits in S6, are the model's choices (logs 3, 5, 26). -/
def Obligations.GenerateResult : Prop :=
  decode 0x00000050#32 = .command .generate ∧
  ∀ (s : State) (a : EngineAnswer) (l : List EngineAnswer) (d : Nat), s.stage = .start →
    s.generateRecord = .success → s.EngineLook a l d →
    ∃ g, (∀ j < 1024, word g j = s.placedWord ((j + 512) % 1024)) ∧
    match a with
    | .success => ∃ r : Results,
      (r = { s.results with asmCp := r.asmCp, asmR := r.asmR, asmLen := r.asmLen, frameOffset := r.frameOffset } ∧
        r.asmCp.toNat = s.cfg.cpLen.toNat ∧ (r.asmR.toNat : Int) = s.cfg.repeatCount.toInt ∧
        (r.asmLen.toNat : Int) = s.cfg.cpLen.toNat + s.cfg.repeatCount.toInt * 1024 ∧
        r.frameOffset.toInt = s.opOffset) ∧
      let t : State := { s with
        grid := g, td := Config.engineF g, engine := l, draws := d, results := r
        status := { s.status with tdValid := true, asmValid := true, engHeld := false } }
      ∀ a' l' d', t.FrameLook a' l' d' → t.FrameOutcome .generate s.opOffset a' l' d' (exec .generate s)
    | .fail => ∃ td, exec .generate s = .next (State.withRecord 3#3 0x20#8 { s with
        grid := g, engine := l, draws := d + 1, td := td
        status := { s.status with tdValid := false, asmValid := false, engHeld := false } })
    | .notYet => exec .generate s = .next { s with
        grid := g, engine := l, draws := d, sequencer := .busy (.command .generate) .engine
        status := { s.status with tdValid := false, asmValid := false, engHeld := true } }
    | .never => exec .generate s = .next { s with
        grid := g, engine := l, draws := d, sequencer := .busy (.command .generate) .engine
        status := { s.status with tdValid := false, asmValid := false, engHeld := true } }

/-- GENERATE resumed at its waits, by what the engine answers and, once it succeeds, by what frame memory answers: the
engine's answer takes it through S4 to S6 on the GRID it left, ends it with DETAIL 0x20 or leaves it waiting, and at the
frame stage it waits or ends as PLACE_FRAME does (45_frame_builder.md R520; 43_transform_interface.md R401, R407, R408,
R410; 20_memory.md R176; logs 2, 3, 5, 26). -/
def Obligations.GenerateResumes : Prop :=
  (∀ (s : State) (a : EngineAnswer) (l : List EngineAnswer) (d : Nat), s.Inv →
    s.sequencer = .busy (.command .generate) .engine → s.EngineLook a l d →
    match a with
    | .success => ∃ r : Results,
      (r = { s.results with asmCp := r.asmCp, asmR := r.asmR, asmLen := r.asmLen, frameOffset := r.frameOffset } ∧
        r.asmCp.toNat = s.cfg.cpLen.toNat ∧ (r.asmR.toNat : Int) = s.cfg.repeatCount.toInt ∧
        (r.asmLen.toNat : Int) = s.cfg.cpLen.toNat + s.cfg.repeatCount.toInt * 1024 ∧
        r.frameOffset.toInt = s.opOffset) ∧
      let t : State := { s with
        td := Config.engineF s.grid, engine := l, draws := d, results := r
        status := { s.status with tdValid := true, asmValid := true, engHeld := false } }
      ∀ a' l' d', t.FrameLook a' l' d' → t.FrameOutcome .generate s.opOffset a' l' d' (exec .generate s)
    | .fail => ∃ td, exec .generate s = .next (State.withRecord 3#3 0x20#8 { s with
        engine := l, draws := d + 1, td := td
        status := { s.status with tdValid := false, asmValid := false, engHeld := false } })
    | .notYet => exec .generate s = .next { s with engine := l, draws := d }
    | .never => exec .generate s = .next { s with engine := l, draws := d }) ∧
  ∀ (s : State) (a : FrameAnswer) (l : List FrameAnswer) (d : Nat), s.Inv →
    s.sequencer = .busy (.command .generate) .frame → s.FrameLook a l d →
    s.FrameOutcome .generate s.opOffset a l d (exec .generate s)

/-- A successful GENERATE leaves what the six stage commands leave, issued one after the other on the same registers,
but for CMD, LAST_OPC and the model's copy of the result registers (45_frame_builder.md R523). -/
def Obligations.GenerateIsTheSixStages : Prop :=
  ∀ (s : State) (l : List EngineAnswer) (l' : List FrameAnswer), s.generateRecord = .success →
    s.engine = .success :: l → s.frameAnswers = .okay :: l' →
    ∃ t t1 t2 t3 t4 t5 t6 : State,
      exec .generate (s.accept (encode .generate)) = .next t ∧
      exec .placeGrid (s.accept (encode .placeGrid)) = .next t1 ∧
      exec .reorder (t1.accept (encode .reorder)) = .next t2 ∧
      exec .transform (t2.accept (encode .transform)) = .next t3 ∧
      exec .buildBlock (t3.accept (encode .buildBlock)) = .next t4 ∧
      exec .computeOffset (t4.accept (encode .computeOffset)) = .next t5 ∧
      exec .placeFrame (t5.accept (encode .placeFrame)) = .next t6 ∧
      t.status.errCode = 0#3 ∧ t.status.frameValid = true ∧
      t6 = { t with
        cmd := encode .placeFrame, status := { t.status with lastOpc := 0x41#8 }, shadow := t5.results }

/-- 45_frame_builder.md R522: the frame a successful GENERATE leaves under the standard configuration, when no other
agent wrote the frame region. -/
def Obligations.StandardFrame : Prop :=
  ∀ s t : State, s.stage = .start → s.raced = false →
    s.cfg.ncs = 69#8 → s.cfg.rbCount = 48#16 → s.cfg.freqOffset = 0#16 → s.cfg.cpLen = 468#16 →
    s.cfg.repeatCount = 12#16 → s.cfg.frameIndex = 9#4 → s.cfg.slotIndex = 1#4 → s.cfg.samplesPerMs = 30720#20 →
    s.cfg.slotSamples = 15360#20 → s.cfg.preambleIndex = 0#32 → symbolSum s.opSd s.opSs = 2208 →
    exec .generate s = .next t → t.sequencer = .idle → t.status.errCode = 0#3 →
    s.opFlen = 307200 ∧ t.status.frameValid = true ∧ t.results.frameOffset = 294048#32 ∧
      t.results.asmLen = 12756#26 ∧ t.results.asmCp = 468#16 ∧ t.td = Config.engineF t.grid ∧
      (∀ j < 1024, word t.grid j = if 736 ≤ j ∧ j < 875 then s.selectedSample (j - 736) else 0#64) ∧
      ∀ j < 307200, ∀ b < 8, memRead t.mem (s.opFb + 8 * j + b) = some (BitVec.extractLsb' (8 * b) 8
        (if 294048 ≤ j ∧ j < 306804 then word t.td ((j + 556 - 294048) % 1024) else 0#64))

/-! ### Other agents -/

/-- A byte another agent writes is the byte it then reads, and nothing else changes, unless the access is a race; a
racing write leaves the frame region any value and every other byte as it was, and a racing read is answered with any
byte and changes nothing else (20_memory.md R177). That a race is remembered to the command's end is log 13, the values
drawn are logs 12 and 13, and that every address answers as plain storage is the model's choice (log 27, R175). -/
def Obligations.OtherAgentsWrites : Prop :=
  ∀ (s : State) (addr : Addr) (b : Byte),
    (s.frameInProgress = true → ¬s.outsideFrame addr.toNat →
      ∃ m, agentWrite addr b s = .next { s with mem := m, raced := true, draws := s.draws + 1 } ∧
        ∀ x, s.outsideFrame x → memRead m x = memRead s.mem x) ∧
    (s.frameInProgress = true → ¬s.outsideFrame addr.toNat →
      ∃ v, agentRead addr s = .next { s with agentResponse := some v, draws := s.draws + 1 }) ∧
    (s.frameInProgress = false ∨ s.outsideFrame addr.toNat → ∀ v, memRead s.mem addr.toNat = some v →
      agentRead addr s = .next { s with agentResponse := some v }) ∧
    (s.frameInProgress = false ∨ s.outsideFrame addr.toNat →
      ∃ m, agentWrite addr b s = .next { s with mem := m } ∧
        (∀ x, memRead m x = if x = addr.toNat then some b else memRead s.mem x) ∧
        agentRead addr { s with mem := m } = .next { s with mem := m, agentResponse := some b })

/-- While no frame command is in progress, a step changes frame memory only for another agent's write
(45_frame_builder.md R511, 10_state.md R67, 20_memory.md R176). After a reset that interrupted outstanding frame writes
this is the model's choice (log 18): such a write does not land after the reset step, where 70_reset_and_hazards.md R702
and R703 let it be performed later. -/
def Obligations.FrameStaysAsWritten : Prop :=
  ∀ s t : State, s.Inv → step s = .next t → s.frameInProgress = false →
    (∀ a b, s.events.head? ≠ some (.agentWrite a b)) → t.mem = s.mem
end

