-- ==== Sys2Proof/Laws/Buffer.lean ====
section
/-! SUPPORT. Reading buffers and tables: what `fill`, `nth`, `word`, `psetWord` and `setNth` give, and the parts of a
sample word. -/

namespace Sys2Proof.Machine

variable {α : Type} {n : Nat}

theorem nth_fill (d : α) (f : Nat → α) (j : Nat) : nth d (fill n f) j = if j < n then f j else d := by
  unfold nth fill
  by_cases h : j < n
  · simp [h, List.getD_eq_getElem?_getD]
  · simp [h, List.getD_eq_getElem?_getD]

theorem nth_fill_lt {d : α} {f : Nat → α} {j : Nat} (h : j < n) : nth d (fill n f) j = f j := by
  rw [nth_fill, if_pos h]

theorem nth_eq_getElem (d : α) (v : Vector α n) {j : Nat} (h : j < n) : nth d v j = v[j] := by
  simp [nth, List.getD_eq_getElem?_getD, h]

theorem nth_ge (d : α) (v : Vector α n) {j : Nat} (h : n ≤ j) : nth d v j = d := by
  simp [nth, List.getD_eq_getElem?_getD, h]

/-- Two buffers that read the same at every index are the same buffer. -/
theorem nth_ext (d : α) {v w : Vector α n} (h : ∀ j < n, nth d v j = nth d w j) : v = w := by
  apply Vector.ext
  intro j hj
  rw [← nth_eq_getElem d v hj, ← nth_eq_getElem d w hj]
  exact h j hj

theorem nth_setNth (d : α) (v : Vector α n) (j i : Nat) (x : α) :
    nth d (setNth d v j x) i = if i < n then (if i = j then x else nth d v i) else d := by
  rw [setNth, nth_fill]

theorem word_fill {m : Nat} (f : Nat → Sample) {j : Nat} (h : j < m) : word (fill m f) j = f j :=
  nth_fill_lt h

theorem word_fill_ge {m : Nat} (f : Nat → Sample) {j : Nat} (h : m ≤ j) : word (fill m f) j = zeroSample := by
  rw [word, nth_fill, if_neg (by omega)]

theorem word_anyWords {m d j : Nat} (h : j < m) : word (anyWords m d) j = Config.anySample d j :=
  word_fill _ h

theorem word_ext {m : Nat} {v w : Vector Sample m} (h : ∀ j < m, word v j = word w j) : v = w :=
  nth_ext zeroSample h

theorem psetWord_fill (f : Nat → Nat → Sample) {i k : Nat} (hi : i < 64) (hk : k < 139) :
    psetWord (fill Config.numPreambles fun i => fill Config.seqLen fun k => f i k) i k = f i k := by
  rw [psetWord, nth_fill_lt hi, word_fill _ hk]

@[simp] theorem re_cplx (a b : Half) : re (cplx a b) = a := by
  apply BitVec.eq_of_getLsbD_eq
  intro i hi
  simp only [re, cplx, BitVec.getLsbD_extractLsb', BitVec.getLsbD_append, hi, Nat.zero_add, decide_true,
    Bool.true_and, ite_true]

@[simp] theorem im_cplx (a b : Half) : im (cplx a b) = b := by
  apply BitVec.eq_of_getLsbD_eq
  intro i hi
  have h : ¬(32 + i < 32) := by omega
  have h' : 32 + i - 32 = i := by omega
  simp only [im, cplx, BitVec.getLsbD_extractLsb', BitVec.getLsbD_append, hi, h, h', decide_true,
    Bool.true_and, ite_false]

@[simp] theorem cplx_re_im (w : Sample) : cplx (re w) (im w) = w := by
  apply BitVec.eq_of_getLsbD_eq
  intro i hi
  simp only [re, im, cplx, BitVec.getLsbD_extractLsb', BitVec.getLsbD_append]
  by_cases h : i < 32
  · simp [h]
  · have h' : i - 32 < 32 := by omega
    have h'' : 32 + (i - 32) = i := by omega
    simp [h, h', h'']

theorem halfOf_setHalf_same (h : Nat) (data : Half) (w : Sample) : halfOf h (setHalf h data w) = data := by
  unfold halfOf setHalf
  split <;> simp

theorem halfOf_setHalf_other (data : Half) (w : Sample) :
    halfOf 1 (setHalf 0 data w) = halfOf 1 w ∧ halfOf 0 (setHalf 1 data w) = halfOf 0 w := by
  simp [halfOf, setHalf]

end Sys2Proof.Machine
end

