-- ==== Sys2Proof/Laws/Memory.lean ====
section
/-! SUPPORT. Frame memory: reading after writing, and every operation keeps the canonical form. -/

namespace Sys2Proof.Machine

/-! ### Reading after writing -/

theorem memRead_writeByte (m : Memory) (a : Nat) (b : Byte) (x : Nat) :
    memRead (memWriteByte m a b) x = if x = a then some b else memRead m x := by
  induction m with
  | nil => simp [memWriteByte, memRead]
  | cons c m ih =>
    obtain ⟨a', b'⟩ := c
    unfold memWriteByte
    split
    · simp [memRead]
    · split
      · subst_vars
        simp only [memRead]
        split <;> rfl
      · simp only [memRead, ih]
        split <;> split <;> simp_all

theorem memRead_writeBytes (m : Memory) (a : Nat) (w : Sample) (n x : Nat) :
    memRead (memWriteBytes m a w n) x = if a ≤ x ∧ x < a + n then some (byteOf w (x - a)) else memRead m x := by
  induction n with
  | zero => simp only [memWriteBytes]; rw [if_neg (by omega)]
  | succ n ih =>
    rw [memWriteBytes, memRead_writeByte, ih]
    by_cases hx : x = a + n
    · subst hx
      rw [if_pos rfl, if_pos (by omega)]
      simp
    · rw [if_neg hx]
      by_cases h : a ≤ x ∧ x < a + n
      · rw [if_pos h, if_pos (by omega)]
      · rw [if_neg h, if_neg (by omega)]

/-- MemWrite(addr, 8, w) stores byte b of w at addr + b and nothing else. -/
theorem memRead_write8 (m : Memory) (a : Nat) (w : Sample) (x : Nat) :
    memRead (memWrite8 m a w) x = if a ≤ x ∧ x < a + 8 then some (byteOf w (x - a)) else memRead m x :=
  memRead_writeBytes m a w 8 x

/-- The frame writes of words 0 to n-1: byte b of word j is at base + 8j + b, and nothing else changes. -/
theorem memRead_writeWords (m : Memory) (base : Nat) (f : Nat → Sample) (n x : Nat) :
    memRead (memWriteWords m base f n) x =
      if base ≤ x ∧ x < base + 8 * n then some (byteOf (f ((x - base) / 8)) ((x - base) % 8))
      else memRead m x := by
  induction n with
  | zero => simp only [memWriteWords]; rw [if_neg (by omega)]
  | succ n ih =>
    rw [memWriteWords, memRead_write8, ih]
    by_cases h8 : base + 8 * n ≤ x ∧ x < base + 8 * n + 8
    · rw [if_pos h8, if_pos (by omega)]
      have hd : (x - base) / 8 = n := by omega
      have hm : (x - base) % 8 = x - (base + 8 * n) := by omega
      rw [hd, hm]
    · rw [if_neg h8]
      by_cases h : base ≤ x ∧ x < base + 8 * n
      · rw [if_pos h, if_pos (by omega)]
      · rw [if_neg h, if_neg (by omega)]

theorem memRead_writeWords_outside {m : Memory} {base : Nat} {f : Nat → Sample} {n x : Nat}
    (h : ¬(base ≤ x ∧ x < base + 8 * n)) : memRead (memWriteWords m base f n) x = memRead m x := by
  rw [memRead_writeWords, if_neg h]

theorem memRead_writeWords_inside {m : Memory} {base : Nat} {f : Nat → Sample} {n j b : Nat} (hj : j < n)
    (hb : b < 8) : memRead (memWriteWords m base f n) (base + 8 * j + b) = some (byteOf (f j) b) := by
  rw [memRead_writeWords, if_pos (by omega)]
  have hd : (base + 8 * j + b - base) / 8 = j := by omega
  have hm : (base + 8 * j + b - base) % 8 = b := by omega
  rw [hd, hm]

/-! ### The canonical form -/

theorem memRising_mono {lo lo' : Nat} {m : Memory} (h : memRising lo m = true) (hl : lo' ≤ lo) :
    memRising lo' m = true := by
  cases m with
  | nil => rfl
  | cons c m =>
    obtain ⟨a, b⟩ := c
    simp only [memRising, Bool.and_eq_true, decide_eq_true_eq] at h ⊢
    exact ⟨⟨by omega, h.1.2⟩, h.2⟩

theorem memRising_writeByte {lo a : Nat} {m : Memory} {b : Byte} (h : memRising lo m = true) (hlo : lo ≤ a)
    (ha : a < addrLimit) : memRising lo (memWriteByte m a b) = true := by
  induction m generalizing lo with
  | nil => simp [memWriteByte, memRising, hlo, ha]
  | cons c m ih =>
    obtain ⟨a', b'⟩ := c
    simp only [memRising, Bool.and_eq_true, decide_eq_true_eq] at h
    unfold memWriteByte
    split
    · next hlt =>
      simp only [memRising, Bool.and_eq_true, decide_eq_true_eq]
      exact ⟨⟨hlo, ha⟩, ⟨by omega, h.1.2⟩, h.2⟩
    · split
      · next heq =>
        subst heq
        simp only [memRising, Bool.and_eq_true, decide_eq_true_eq]
        exact ⟨⟨hlo, ha⟩, h.2⟩
      · next hlt hne =>
        simp only [memRising, Bool.and_eq_true, decide_eq_true_eq]
        exact ⟨h.1, ih h.2 (by omega)⟩

/-- Writing a byte keeps the canonical form. -/
theorem wf_writeByte {m : Memory} {a : Nat} {b : Byte} (h : m.wf = true) (ha : a < addrLimit) :
    Memory.wf (memWriteByte m a b) = true :=
  memRising_writeByte h (Nat.zero_le _) ha

theorem wf_writeBytes {m : Memory} {a : Nat} {w : Sample} {n : Nat} (h : m.wf = true)
    (ha : a + n ≤ addrLimit) : Memory.wf (memWriteBytes m a w n) = true := by
  induction n with
  | zero => exact h
  | succ n ih => exact wf_writeByte (ih (by omega)) (by omega)

/-- Writing frame words keeps the canonical form. -/
theorem wf_writeWords {m : Memory} {base : Nat} {f : Nat → Sample} {n : Nat} (h : m.wf = true)
    (ha : base + 8 * n ≤ addrLimit) : Memory.wf (memWriteWords m base f n) = true := by
  induction n with
  | zero => exact h
  | succ n ih => exact wf_writeBytes (ih (by omega)) (by omega)

theorem opFb_lt (s : State) : s.opFb < addrLimit := (fbBaseWord s.cfg.fbBase).isLt

theorem regionWords_fits (s : State) : s.opFb + 8 * s.regionWords ≤ addrLimit := by
  have h := opFb_lt s
  unfold State.regionWords
  omega

/-- Spoiling the frame region keeps the canonical form. -/
theorem wf_spoiledRegion {s : State} (h : s.mem.wf = true) (d : Nat) : Memory.wf (s.spoiledRegion d) = true :=
  wf_writeWords h (regionWords_fits s)

/-- The frame writes keep the canonical form when the frame fits (45_frame_builder.md R510). -/
theorem wf_frameMem {s : State} (h : s.mem.wf = true) (hf : s.opFb + 8 * s.opFlen ≤ addrLimit) (off : Int)
    (good : Nat) : Memory.wf (s.frameMem off good) = true :=
  wf_writeWords h hf

end Sys2Proof.Machine
end

