-- ==== Sys2Proof/Laws/State.lean ====
section
/-! SUPPORT. One lemma per field of State per update, and per operand that an update leaves alone, all true by rfl:
later proofs cite these and do not unfold an update. -/

namespace Sys2Proof.Machine

variable (s : State)

/-! ### complete -/

@[simp] theorem State.complete_irqEn (e : Err) : (s.complete e).irqEn = s.irqEn := rfl
@[simp] theorem State.complete_cmd (e : Err) : (s.complete e).cmd = s.cmd := rfl
@[simp] theorem State.complete_status (e : Err) : (s.complete e).status = { s.status with errCode := e.code, errDetail := e.detail, done := true } := rfl
@[simp] theorem State.complete_cfg (e : Err) : (s.complete e).cfg = s.cfg := rfl
@[simp] theorem State.complete_results (e : Err) : (s.complete e).results = s.results := rfl
@[simp] theorem State.complete_shadow (e : Err) : (s.complete e).shadow = s.shadow := rfl
@[simp] theorem State.complete_pset (e : Err) : (s.complete e).pset = s.pset := rfl
@[simp] theorem State.complete_grid (e : Err) : (s.complete e).grid = s.grid := rfl
@[simp] theorem State.complete_td (e : Err) : (s.complete e).td = s.td := rfl
@[simp] theorem State.complete_sequencer (e : Err) : (s.complete e).sequencer = .idle := rfl
@[simp] theorem State.complete_issued (e : Err) : (s.complete e).issued = 0 := rfl
@[simp] theorem State.complete_outstanding (e : Err) : (s.complete e).outstanding = 0 := rfl
@[simp] theorem State.complete_resetAsserted (e : Err) : (s.complete e).resetAsserted = s.resetAsserted := rfl
@[simp] theorem State.complete_raced (e : Err) : (s.complete e).raced = s.raced := rfl
@[simp] theorem State.complete_mem (e : Err) : (s.complete e).mem = s.mem := rfl
@[simp] theorem State.complete_engine (e : Err) : (s.complete e).engine = s.engine := rfl
@[simp] theorem State.complete_frameAnswers (e : Err) : (s.complete e).frameAnswers = s.frameAnswers := rfl
@[simp] theorem State.complete_events (e : Err) : (s.complete e).events = s.events := rfl
@[simp] theorem State.complete_response (e : Err) : (s.complete e).response = s.response := rfl
@[simp] theorem State.complete_agentResponse (e : Err) : (s.complete e).agentResponse = s.agentResponse := rfl
@[simp] theorem State.complete_draws (e : Err) : (s.complete e).draws = s.draws := rfl
@[simp] theorem State.complete_opNcs (e : Err) : (s.complete e).opNcs = s.opNcs := rfl
@[simp] theorem State.complete_opRt (e : Err) (r : Nat) : (s.complete e).opRt r = s.opRt r := rfl
@[simp] theorem State.complete_opFlen (e : Err) : (s.complete e).opFlen = s.opFlen := rfl
@[simp] theorem State.complete_opFb (e : Err) : (s.complete e).opFb = s.opFb := rfl
@[simp] theorem State.complete_opOffset (e : Err) : (s.complete e).opOffset = s.opOffset := rfl
@[simp] theorem State.complete_opAlen (e : Err) : (s.complete e).opAlen = s.opAlen := rfl
@[simp] theorem State.complete_opNcp (e : Err) : (s.complete e).opNcp = s.opNcp := rfl
@[simp] theorem State.complete_opR (e : Err) : (s.complete e).opR = s.opR := rfl
@[simp] theorem State.complete_opStart (e : Err) : (s.complete e).opStart = s.opStart := rfl
@[simp] theorem State.complete_opIdx (e : Err) : (s.complete e).opIdx = s.opIdx := rfl
@[simp] theorem State.complete_regionWords (e : Err) : (s.complete e).regionWords = s.regionWords := rfl
@[simp] theorem State.complete_configChecks (e : Err) : (s.complete e).configChecks = s.configChecks := rfl
@[simp] theorem State.complete_generateChecks (e : Err) : (s.complete e).generateChecks = s.generateChecks := rfl
@[simp] theorem State.complete_psetDef (e : Err) (j k : Nat) : (s.complete e).psetDef j k = s.psetDef j k := rfl

/-! ### accept -/

@[simp] theorem State.accept_irqEn (w : Half) : (s.accept w).irqEn = s.irqEn := rfl
@[simp] theorem State.accept_cmd (w : Half) : (s.accept w).cmd = w := rfl
@[simp] theorem State.accept_status (w : Half) : (s.accept w).status = { s.status with
      lastOpc := w.extractLsb' 0 8, done := false
      frameValid := s.status.frameValid && !isFrameCommand (decode w) } := rfl
@[simp] theorem State.accept_cfg (w : Half) : (s.accept w).cfg = s.cfg := rfl
@[simp] theorem State.accept_results (w : Half) : (s.accept w).results = s.results := rfl
@[simp] theorem State.accept_shadow (w : Half) : (s.accept w).shadow = s.results := rfl
@[simp] theorem State.accept_pset (w : Half) : (s.accept w).pset = s.pset := rfl
@[simp] theorem State.accept_grid (w : Half) : (s.accept w).grid = s.grid := rfl
@[simp] theorem State.accept_td (w : Half) : (s.accept w).td = s.td := rfl
@[simp] theorem State.accept_sequencer (w : Half) : (s.accept w).sequencer = .busy (decode w) .start := rfl
@[simp] theorem State.accept_issued (w : Half) : (s.accept w).issued = s.issued := rfl
@[simp] theorem State.accept_outstanding (w : Half) : (s.accept w).outstanding = s.outstanding := rfl
@[simp] theorem State.accept_resetAsserted (w : Half) : (s.accept w).resetAsserted = s.resetAsserted := rfl
@[simp] theorem State.accept_raced (w : Half) : (s.accept w).raced = false := rfl
@[simp] theorem State.accept_mem (w : Half) : (s.accept w).mem = s.mem := rfl
@[simp] theorem State.accept_engine (w : Half) : (s.accept w).engine = s.engine := rfl
@[simp] theorem State.accept_frameAnswers (w : Half) : (s.accept w).frameAnswers = s.frameAnswers := rfl
@[simp] theorem State.accept_events (w : Half) : (s.accept w).events = s.events := rfl
@[simp] theorem State.accept_response (w : Half) : (s.accept w).response = s.response := rfl
@[simp] theorem State.accept_agentResponse (w : Half) : (s.accept w).agentResponse = s.agentResponse := rfl
@[simp] theorem State.accept_draws (w : Half) : (s.accept w).draws = s.draws := rfl
@[simp] theorem State.accept_opNcs (w : Half) : (s.accept w).opNcs = s.opNcs := rfl
@[simp] theorem State.accept_opRt (w : Half) (r : Nat) : (s.accept w).opRt r = s.opRt r := rfl
@[simp] theorem State.accept_opFlen (w : Half) : (s.accept w).opFlen = s.opFlen := rfl
@[simp] theorem State.accept_opFb (w : Half) : (s.accept w).opFb = s.opFb := rfl
@[simp] theorem State.accept_opOffset (w : Half) : (s.accept w).opOffset = s.opOffset := rfl
@[simp] theorem State.accept_opAlen (w : Half) : (s.accept w).opAlen = s.opAlen := rfl
@[simp] theorem State.accept_opNcp (w : Half) : (s.accept w).opNcp = s.opNcp := rfl
@[simp] theorem State.accept_opR (w : Half) : (s.accept w).opR = s.opR := rfl
@[simp] theorem State.accept_opStart (w : Half) : (s.accept w).opStart = s.opStart := rfl
@[simp] theorem State.accept_opIdx (w : Half) : (s.accept w).opIdx = s.opIdx := rfl
@[simp] theorem State.accept_regionWords (w : Half) : (s.accept w).regionWords = s.regionWords := rfl
@[simp] theorem State.accept_configChecks (w : Half) : (s.accept w).configChecks = s.configChecks := rfl
@[simp] theorem State.accept_generateChecks (w : Half) : (s.accept w).generateChecks = s.generateChecks := rfl
@[simp] theorem State.accept_psetDef (w : Half) (j k : Nat) : (s.accept w).psetDef j k = s.psetDef j k := rfl

/-! ### waitAt -/

@[simp] theorem State.waitAt_irqEn (i : Instr) (st : Stage) : (s.waitAt i st).irqEn = s.irqEn := rfl
@[simp] theorem State.waitAt_cmd (i : Instr) (st : Stage) : (s.waitAt i st).cmd = s.cmd := rfl
@[simp] theorem State.waitAt_status (i : Instr) (st : Stage) : (s.waitAt i st).status = s.status := rfl
@[simp] theorem State.waitAt_cfg (i : Instr) (st : Stage) : (s.waitAt i st).cfg = s.cfg := rfl
@[simp] theorem State.waitAt_results (i : Instr) (st : Stage) : (s.waitAt i st).results = s.results := rfl
@[simp] theorem State.waitAt_shadow (i : Instr) (st : Stage) : (s.waitAt i st).shadow = s.shadow := rfl
@[simp] theorem State.waitAt_pset (i : Instr) (st : Stage) : (s.waitAt i st).pset = s.pset := rfl
@[simp] theorem State.waitAt_grid (i : Instr) (st : Stage) : (s.waitAt i st).grid = s.grid := rfl
@[simp] theorem State.waitAt_td (i : Instr) (st : Stage) : (s.waitAt i st).td = s.td := rfl
@[simp] theorem State.waitAt_sequencer (i : Instr) (st : Stage) : (s.waitAt i st).sequencer = .busy (.command i) st := rfl
@[simp] theorem State.waitAt_issued (i : Instr) (st : Stage) : (s.waitAt i st).issued = s.issued := rfl
@[simp] theorem State.waitAt_outstanding (i : Instr) (st : Stage) : (s.waitAt i st).outstanding = s.outstanding := rfl
@[simp] theorem State.waitAt_resetAsserted (i : Instr) (st : Stage) : (s.waitAt i st).resetAsserted = s.resetAsserted := rfl
@[simp] theorem State.waitAt_raced (i : Instr) (st : Stage) : (s.waitAt i st).raced = s.raced := rfl
@[simp] theorem State.waitAt_mem (i : Instr) (st : Stage) : (s.waitAt i st).mem = s.mem := rfl
@[simp] theorem State.waitAt_engine (i : Instr) (st : Stage) : (s.waitAt i st).engine = s.engine := rfl
@[simp] theorem State.waitAt_frameAnswers (i : Instr) (st : Stage) : (s.waitAt i st).frameAnswers = s.frameAnswers := rfl
@[simp] theorem State.waitAt_events (i : Instr) (st : Stage) : (s.waitAt i st).events = s.events := rfl
@[simp] theorem State.waitAt_response (i : Instr) (st : Stage) : (s.waitAt i st).response = s.response := rfl
@[simp] theorem State.waitAt_agentResponse (i : Instr) (st : Stage) : (s.waitAt i st).agentResponse = s.agentResponse := rfl
@[simp] theorem State.waitAt_draws (i : Instr) (st : Stage) : (s.waitAt i st).draws = s.draws := rfl
@[simp] theorem State.waitAt_opNcs (i : Instr) (st : Stage) : (s.waitAt i st).opNcs = s.opNcs := rfl
@[simp] theorem State.waitAt_opRt (i : Instr) (st : Stage) (r : Nat) : (s.waitAt i st).opRt r = s.opRt r := rfl
@[simp] theorem State.waitAt_opFlen (i : Instr) (st : Stage) : (s.waitAt i st).opFlen = s.opFlen := rfl
@[simp] theorem State.waitAt_opFb (i : Instr) (st : Stage) : (s.waitAt i st).opFb = s.opFb := rfl
@[simp] theorem State.waitAt_opOffset (i : Instr) (st : Stage) : (s.waitAt i st).opOffset = s.opOffset := rfl
@[simp] theorem State.waitAt_opAlen (i : Instr) (st : Stage) : (s.waitAt i st).opAlen = s.opAlen := rfl
@[simp] theorem State.waitAt_opNcp (i : Instr) (st : Stage) : (s.waitAt i st).opNcp = s.opNcp := rfl
@[simp] theorem State.waitAt_opR (i : Instr) (st : Stage) : (s.waitAt i st).opR = s.opR := rfl
@[simp] theorem State.waitAt_opStart (i : Instr) (st : Stage) : (s.waitAt i st).opStart = s.opStart := rfl
@[simp] theorem State.waitAt_opIdx (i : Instr) (st : Stage) : (s.waitAt i st).opIdx = s.opIdx := rfl
@[simp] theorem State.waitAt_regionWords (i : Instr) (st : Stage) : (s.waitAt i st).regionWords = s.regionWords := rfl
@[simp] theorem State.waitAt_configChecks (i : Instr) (st : Stage) : (s.waitAt i st).configChecks = s.configChecks := rfl
@[simp] theorem State.waitAt_generateChecks (i : Instr) (st : Stage) : (s.waitAt i st).generateChecks = s.generateChecks := rfl
@[simp] theorem State.waitAt_psetDef (i : Instr) (st : Stage) (j k : Nat) : (s.waitAt i st).psetDef j k = s.psetDef j k := rfl

/-! ### transformBegin -/

@[simp] theorem State.transformBegin_irqEn : s.transformBegin.irqEn = s.irqEn := rfl
@[simp] theorem State.transformBegin_cmd : s.transformBegin.cmd = s.cmd := rfl
@[simp] theorem State.transformBegin_status : s.transformBegin.status = { s.status with tdValid := false, asmValid := false, engHeld := true } := rfl
@[simp] theorem State.transformBegin_cfg : s.transformBegin.cfg = s.cfg := rfl
@[simp] theorem State.transformBegin_results : s.transformBegin.results = s.results := rfl
@[simp] theorem State.transformBegin_shadow : s.transformBegin.shadow = s.shadow := rfl
@[simp] theorem State.transformBegin_pset : s.transformBegin.pset = s.pset := rfl
@[simp] theorem State.transformBegin_grid : s.transformBegin.grid = s.grid := rfl
@[simp] theorem State.transformBegin_td : s.transformBegin.td = s.td := rfl
@[simp] theorem State.transformBegin_sequencer : s.transformBegin.sequencer = s.sequencer := rfl
@[simp] theorem State.transformBegin_issued : s.transformBegin.issued = s.issued := rfl
@[simp] theorem State.transformBegin_outstanding : s.transformBegin.outstanding = s.outstanding := rfl
@[simp] theorem State.transformBegin_resetAsserted : s.transformBegin.resetAsserted = s.resetAsserted := rfl
@[simp] theorem State.transformBegin_raced : s.transformBegin.raced = s.raced := rfl
@[simp] theorem State.transformBegin_mem : s.transformBegin.mem = s.mem := rfl
@[simp] theorem State.transformBegin_engine : s.transformBegin.engine = s.engine := rfl
@[simp] theorem State.transformBegin_frameAnswers : s.transformBegin.frameAnswers = s.frameAnswers := rfl
@[simp] theorem State.transformBegin_events : s.transformBegin.events = s.events := rfl
@[simp] theorem State.transformBegin_response : s.transformBegin.response = s.response := rfl
@[simp] theorem State.transformBegin_agentResponse : s.transformBegin.agentResponse = s.agentResponse := rfl
@[simp] theorem State.transformBegin_draws : s.transformBegin.draws = s.draws := rfl
@[simp] theorem State.transformBegin_opNcs : s.transformBegin.opNcs = s.opNcs := rfl
@[simp] theorem State.transformBegin_opRt (r : Nat) : s.transformBegin.opRt r = s.opRt r := rfl
@[simp] theorem State.transformBegin_opFlen : s.transformBegin.opFlen = s.opFlen := rfl
@[simp] theorem State.transformBegin_opFb : s.transformBegin.opFb = s.opFb := rfl
@[simp] theorem State.transformBegin_opOffset : s.transformBegin.opOffset = s.opOffset := rfl
@[simp] theorem State.transformBegin_opAlen : s.transformBegin.opAlen = s.opAlen := rfl
@[simp] theorem State.transformBegin_opNcp : s.transformBegin.opNcp = s.opNcp := rfl
@[simp] theorem State.transformBegin_opR : s.transformBegin.opR = s.opR := rfl
@[simp] theorem State.transformBegin_opStart : s.transformBegin.opStart = s.opStart := rfl
@[simp] theorem State.transformBegin_opIdx : s.transformBegin.opIdx = s.opIdx := rfl
@[simp] theorem State.transformBegin_regionWords : s.transformBegin.regionWords = s.regionWords := rfl
@[simp] theorem State.transformBegin_configChecks : s.transformBegin.configChecks = s.configChecks := rfl
@[simp] theorem State.transformBegin_generateChecks : s.transformBegin.generateChecks = s.generateChecks := rfl
@[simp] theorem State.transformBegin_psetDef (j k : Nat) : s.transformBegin.psetDef j k = s.psetDef j k := rfl

/-! ### release -/

@[simp] theorem State.release_irqEn : s.release.irqEn = s.irqEn := rfl
@[simp] theorem State.release_cmd : s.release.cmd = s.cmd := rfl
@[simp] theorem State.release_status : s.release.status = { s.status with engHeld := false } := rfl
@[simp] theorem State.release_cfg : s.release.cfg = s.cfg := rfl
@[simp] theorem State.release_results : s.release.results = s.results := rfl
@[simp] theorem State.release_shadow : s.release.shadow = s.shadow := rfl
@[simp] theorem State.release_pset : s.release.pset = s.pset := rfl
@[simp] theorem State.release_grid : s.release.grid = s.grid := rfl
@[simp] theorem State.release_td : s.release.td = s.td := rfl
@[simp] theorem State.release_sequencer : s.release.sequencer = s.sequencer := rfl
@[simp] theorem State.release_issued : s.release.issued = s.issued := rfl
@[simp] theorem State.release_outstanding : s.release.outstanding = s.outstanding := rfl
@[simp] theorem State.release_resetAsserted : s.release.resetAsserted = s.resetAsserted := rfl
@[simp] theorem State.release_raced : s.release.raced = s.raced := rfl
@[simp] theorem State.release_mem : s.release.mem = s.mem := rfl
@[simp] theorem State.release_engine : s.release.engine = s.engine := rfl
@[simp] theorem State.release_frameAnswers : s.release.frameAnswers = s.frameAnswers := rfl
@[simp] theorem State.release_events : s.release.events = s.events := rfl
@[simp] theorem State.release_response : s.release.response = s.response := rfl
@[simp] theorem State.release_agentResponse : s.release.agentResponse = s.agentResponse := rfl
@[simp] theorem State.release_draws : s.release.draws = s.draws := rfl
@[simp] theorem State.release_opNcs : s.release.opNcs = s.opNcs := rfl
@[simp] theorem State.release_opRt (r : Nat) : s.release.opRt r = s.opRt r := rfl
@[simp] theorem State.release_opFlen : s.release.opFlen = s.opFlen := rfl
@[simp] theorem State.release_opFb : s.release.opFb = s.opFb := rfl
@[simp] theorem State.release_opOffset : s.release.opOffset = s.opOffset := rfl
@[simp] theorem State.release_opAlen : s.release.opAlen = s.opAlen := rfl
@[simp] theorem State.release_opNcp : s.release.opNcp = s.opNcp := rfl
@[simp] theorem State.release_opR : s.release.opR = s.opR := rfl
@[simp] theorem State.release_opStart : s.release.opStart = s.opStart := rfl
@[simp] theorem State.release_opIdx : s.release.opIdx = s.opIdx := rfl
@[simp] theorem State.release_regionWords : s.release.regionWords = s.regionWords := rfl
@[simp] theorem State.release_configChecks : s.release.configChecks = s.configChecks := rfl
@[simp] theorem State.release_generateChecks : s.release.generateChecks = s.generateChecks := rfl
@[simp] theorem State.release_psetDef (j k : Nat) : s.release.psetDef j k = s.psetDef j k := rfl

/-! ### storeBlock -/

@[simp] theorem State.storeBlock_irqEn : s.storeBlock.irqEn = s.irqEn := rfl
@[simp] theorem State.storeBlock_cmd : s.storeBlock.cmd = s.cmd := rfl
@[simp] theorem State.storeBlock_status : s.storeBlock.status = { s.status with tdValid := true } := rfl
@[simp] theorem State.storeBlock_cfg : s.storeBlock.cfg = s.cfg := rfl
@[simp] theorem State.storeBlock_results : s.storeBlock.results = s.results := rfl
@[simp] theorem State.storeBlock_shadow : s.storeBlock.shadow = s.shadow := rfl
@[simp] theorem State.storeBlock_pset : s.storeBlock.pset = s.pset := rfl
@[simp] theorem State.storeBlock_grid : s.storeBlock.grid = s.grid := rfl
@[simp] theorem State.storeBlock_td : s.storeBlock.td = Config.engineF s.grid := rfl
@[simp] theorem State.storeBlock_sequencer : s.storeBlock.sequencer = s.sequencer := rfl
@[simp] theorem State.storeBlock_issued : s.storeBlock.issued = s.issued := rfl
@[simp] theorem State.storeBlock_outstanding : s.storeBlock.outstanding = s.outstanding := rfl
@[simp] theorem State.storeBlock_resetAsserted : s.storeBlock.resetAsserted = s.resetAsserted := rfl
@[simp] theorem State.storeBlock_raced : s.storeBlock.raced = s.raced := rfl
@[simp] theorem State.storeBlock_mem : s.storeBlock.mem = s.mem := rfl
@[simp] theorem State.storeBlock_engine : s.storeBlock.engine = s.engine := rfl
@[simp] theorem State.storeBlock_frameAnswers : s.storeBlock.frameAnswers = s.frameAnswers := rfl
@[simp] theorem State.storeBlock_events : s.storeBlock.events = s.events := rfl
@[simp] theorem State.storeBlock_response : s.storeBlock.response = s.response := rfl
@[simp] theorem State.storeBlock_agentResponse : s.storeBlock.agentResponse = s.agentResponse := rfl
@[simp] theorem State.storeBlock_draws : s.storeBlock.draws = s.draws := rfl
@[simp] theorem State.storeBlock_opNcs : s.storeBlock.opNcs = s.opNcs := rfl
@[simp] theorem State.storeBlock_opRt (r : Nat) : s.storeBlock.opRt r = s.opRt r := rfl
@[simp] theorem State.storeBlock_opFlen : s.storeBlock.opFlen = s.opFlen := rfl
@[simp] theorem State.storeBlock_opFb : s.storeBlock.opFb = s.opFb := rfl
@[simp] theorem State.storeBlock_opOffset : s.storeBlock.opOffset = s.opOffset := rfl
@[simp] theorem State.storeBlock_opAlen : s.storeBlock.opAlen = s.opAlen := rfl
@[simp] theorem State.storeBlock_opNcp : s.storeBlock.opNcp = s.opNcp := rfl
@[simp] theorem State.storeBlock_opR : s.storeBlock.opR = s.opR := rfl
@[simp] theorem State.storeBlock_opStart : s.storeBlock.opStart = s.opStart := rfl
@[simp] theorem State.storeBlock_opIdx : s.storeBlock.opIdx = s.opIdx := rfl
@[simp] theorem State.storeBlock_regionWords : s.storeBlock.regionWords = s.regionWords := rfl
@[simp] theorem State.storeBlock_configChecks : s.storeBlock.configChecks = s.configChecks := rfl
@[simp] theorem State.storeBlock_generateChecks : s.storeBlock.generateChecks = s.generateChecks := rfl
@[simp] theorem State.storeBlock_psetDef (j k : Nat) : s.storeBlock.psetDef j k = s.psetDef j k := rfl

/-! ### spoilBlock -/

@[simp] theorem State.spoilBlock_irqEn : s.spoilBlock.irqEn = s.irqEn := rfl
@[simp] theorem State.spoilBlock_cmd : s.spoilBlock.cmd = s.cmd := rfl
@[simp] theorem State.spoilBlock_status : s.spoilBlock.status = s.status := rfl
@[simp] theorem State.spoilBlock_cfg : s.spoilBlock.cfg = s.cfg := rfl
@[simp] theorem State.spoilBlock_results : s.spoilBlock.results = s.results := rfl
@[simp] theorem State.spoilBlock_shadow : s.spoilBlock.shadow = s.shadow := rfl
@[simp] theorem State.spoilBlock_pset : s.spoilBlock.pset = s.pset := rfl
@[simp] theorem State.spoilBlock_grid : s.spoilBlock.grid = s.grid := rfl
@[simp] theorem State.spoilBlock_td : s.spoilBlock.td = anyWords Config.gridSize s.draws := rfl
@[simp] theorem State.spoilBlock_sequencer : s.spoilBlock.sequencer = s.sequencer := rfl
@[simp] theorem State.spoilBlock_issued : s.spoilBlock.issued = s.issued := rfl
@[simp] theorem State.spoilBlock_outstanding : s.spoilBlock.outstanding = s.outstanding := rfl
@[simp] theorem State.spoilBlock_resetAsserted : s.spoilBlock.resetAsserted = s.resetAsserted := rfl
@[simp] theorem State.spoilBlock_raced : s.spoilBlock.raced = s.raced := rfl
@[simp] theorem State.spoilBlock_mem : s.spoilBlock.mem = s.mem := rfl
@[simp] theorem State.spoilBlock_engine : s.spoilBlock.engine = s.engine := rfl
@[simp] theorem State.spoilBlock_frameAnswers : s.spoilBlock.frameAnswers = s.frameAnswers := rfl
@[simp] theorem State.spoilBlock_events : s.spoilBlock.events = s.events := rfl
@[simp] theorem State.spoilBlock_response : s.spoilBlock.response = s.response := rfl
@[simp] theorem State.spoilBlock_agentResponse : s.spoilBlock.agentResponse = s.agentResponse := rfl
@[simp] theorem State.spoilBlock_draws : s.spoilBlock.draws = s.draws + 1 := rfl
@[simp] theorem State.spoilBlock_opNcs : s.spoilBlock.opNcs = s.opNcs := rfl
@[simp] theorem State.spoilBlock_opRt (r : Nat) : s.spoilBlock.opRt r = s.opRt r := rfl
@[simp] theorem State.spoilBlock_opFlen : s.spoilBlock.opFlen = s.opFlen := rfl
@[simp] theorem State.spoilBlock_opFb : s.spoilBlock.opFb = s.opFb := rfl
@[simp] theorem State.spoilBlock_opOffset : s.spoilBlock.opOffset = s.opOffset := rfl
@[simp] theorem State.spoilBlock_opAlen : s.spoilBlock.opAlen = s.opAlen := rfl
@[simp] theorem State.spoilBlock_opNcp : s.spoilBlock.opNcp = s.opNcp := rfl
@[simp] theorem State.spoilBlock_opR : s.spoilBlock.opR = s.opR := rfl
@[simp] theorem State.spoilBlock_opStart : s.spoilBlock.opStart = s.opStart := rfl
@[simp] theorem State.spoilBlock_opIdx : s.spoilBlock.opIdx = s.opIdx := rfl
@[simp] theorem State.spoilBlock_regionWords : s.spoilBlock.regionWords = s.regionWords := rfl
@[simp] theorem State.spoilBlock_configChecks : s.spoilBlock.configChecks = s.configChecks := rfl
@[simp] theorem State.spoilBlock_generateChecks : s.spoilBlock.generateChecks = s.generateChecks := rfl
@[simp] theorem State.spoilBlock_psetDef (j k : Nat) : s.spoilBlock.psetDef j k = s.psetDef j k := rfl

/-! ### frameWait -/

@[simp] theorem State.frameWait_irqEn (i : Instr) (n o : Nat) : (s.frameWait i n o).irqEn = s.irqEn := rfl
@[simp] theorem State.frameWait_cmd (i : Instr) (n o : Nat) : (s.frameWait i n o).cmd = s.cmd := rfl
@[simp] theorem State.frameWait_status (i : Instr) (n o : Nat) : (s.frameWait i n o).status = s.status := rfl
@[simp] theorem State.frameWait_cfg (i : Instr) (n o : Nat) : (s.frameWait i n o).cfg = s.cfg := rfl
@[simp] theorem State.frameWait_results (i : Instr) (n o : Nat) : (s.frameWait i n o).results = s.results := rfl
@[simp] theorem State.frameWait_shadow (i : Instr) (n o : Nat) : (s.frameWait i n o).shadow = s.shadow := rfl
@[simp] theorem State.frameWait_pset (i : Instr) (n o : Nat) : (s.frameWait i n o).pset = s.pset := rfl
@[simp] theorem State.frameWait_grid (i : Instr) (n o : Nat) : (s.frameWait i n o).grid = s.grid := rfl
@[simp] theorem State.frameWait_td (i : Instr) (n o : Nat) : (s.frameWait i n o).td = s.td := rfl
@[simp] theorem State.frameWait_sequencer (i : Instr) (n o : Nat) : (s.frameWait i n o).sequencer = .busy (.command i) .frame := rfl
@[simp] theorem State.frameWait_issued (i : Instr) (n o : Nat) : (s.frameWait i n o).issued = n := rfl
@[simp] theorem State.frameWait_outstanding (i : Instr) (n o : Nat) : (s.frameWait i n o).outstanding = o := rfl
@[simp] theorem State.frameWait_resetAsserted (i : Instr) (n o : Nat) : (s.frameWait i n o).resetAsserted = s.resetAsserted := rfl
@[simp] theorem State.frameWait_raced (i : Instr) (n o : Nat) : (s.frameWait i n o).raced = s.raced := rfl
@[simp] theorem State.frameWait_mem (i : Instr) (n o : Nat) : (s.frameWait i n o).mem = if n = 0 then s.mem else s.spoiledRegion s.draws := rfl
@[simp] theorem State.frameWait_engine (i : Instr) (n o : Nat) : (s.frameWait i n o).engine = s.engine := rfl
@[simp] theorem State.frameWait_frameAnswers (i : Instr) (n o : Nat) : (s.frameWait i n o).frameAnswers = s.frameAnswers := rfl
@[simp] theorem State.frameWait_events (i : Instr) (n o : Nat) : (s.frameWait i n o).events = s.events := rfl
@[simp] theorem State.frameWait_response (i : Instr) (n o : Nat) : (s.frameWait i n o).response = s.response := rfl
@[simp] theorem State.frameWait_agentResponse (i : Instr) (n o : Nat) : (s.frameWait i n o).agentResponse = s.agentResponse := rfl
@[simp] theorem State.frameWait_draws (i : Instr) (n o : Nat) : (s.frameWait i n o).draws = s.draws + 1 := rfl
@[simp] theorem State.frameWait_opNcs (i : Instr) (n o : Nat) : (s.frameWait i n o).opNcs = s.opNcs := rfl
@[simp] theorem State.frameWait_opRt (i : Instr) (n o : Nat) (r : Nat) : (s.frameWait i n o).opRt r = s.opRt r := rfl
@[simp] theorem State.frameWait_opFlen (i : Instr) (n o : Nat) : (s.frameWait i n o).opFlen = s.opFlen := rfl
@[simp] theorem State.frameWait_opFb (i : Instr) (n o : Nat) : (s.frameWait i n o).opFb = s.opFb := rfl
@[simp] theorem State.frameWait_opOffset (i : Instr) (n o : Nat) : (s.frameWait i n o).opOffset = s.opOffset := rfl
@[simp] theorem State.frameWait_opAlen (i : Instr) (n o : Nat) : (s.frameWait i n o).opAlen = s.opAlen := rfl
@[simp] theorem State.frameWait_opNcp (i : Instr) (n o : Nat) : (s.frameWait i n o).opNcp = s.opNcp := rfl
@[simp] theorem State.frameWait_opR (i : Instr) (n o : Nat) : (s.frameWait i n o).opR = s.opR := rfl
@[simp] theorem State.frameWait_opStart (i : Instr) (n o : Nat) : (s.frameWait i n o).opStart = s.opStart := rfl
@[simp] theorem State.frameWait_opIdx (i : Instr) (n o : Nat) : (s.frameWait i n o).opIdx = s.opIdx := rfl
@[simp] theorem State.frameWait_regionWords (i : Instr) (n o : Nat) : (s.frameWait i n o).regionWords = s.regionWords := rfl
@[simp] theorem State.frameWait_configChecks (i : Instr) (n o : Nat) : (s.frameWait i n o).configChecks = s.configChecks := rfl
@[simp] theorem State.frameWait_generateChecks (i : Instr) (n o : Nat) : (s.frameWait i n o).generateChecks = s.generateChecks := rfl
@[simp] theorem State.frameWait_psetDef (i : Instr) (n o : Nat) (j k : Nat) : (s.frameWait i n o).psetDef j k = s.psetDef j k := rfl

/-! ### frameDone -/

@[simp] theorem State.frameDone_irqEn (off : Int) : (s.frameDone off).irqEn = s.irqEn := rfl
@[simp] theorem State.frameDone_cmd (off : Int) : (s.frameDone off).cmd = s.cmd := rfl
@[simp] theorem State.frameDone_status (off : Int) : (s.frameDone off).status = { s.status with frameValid := true } := rfl
@[simp] theorem State.frameDone_cfg (off : Int) : (s.frameDone off).cfg = s.cfg := rfl
@[simp] theorem State.frameDone_results (off : Int) : (s.frameDone off).results = s.results := rfl
@[simp] theorem State.frameDone_shadow (off : Int) : (s.frameDone off).shadow = s.shadow := rfl
@[simp] theorem State.frameDone_pset (off : Int) : (s.frameDone off).pset = s.pset := rfl
@[simp] theorem State.frameDone_grid (off : Int) : (s.frameDone off).grid = s.grid := rfl
@[simp] theorem State.frameDone_td (off : Int) : (s.frameDone off).td = s.td := rfl
@[simp] theorem State.frameDone_sequencer (off : Int) : (s.frameDone off).sequencer = s.sequencer := rfl
@[simp] theorem State.frameDone_issued (off : Int) : (s.frameDone off).issued = s.issued := rfl
@[simp] theorem State.frameDone_outstanding (off : Int) : (s.frameDone off).outstanding = s.outstanding := rfl
@[simp] theorem State.frameDone_resetAsserted (off : Int) : (s.frameDone off).resetAsserted = s.resetAsserted := rfl
@[simp] theorem State.frameDone_raced (off : Int) : (s.frameDone off).raced = s.raced := rfl
@[simp] theorem State.frameDone_mem (off : Int) : (s.frameDone off).mem = s.frameMem off s.opFlen := rfl
@[simp] theorem State.frameDone_engine (off : Int) : (s.frameDone off).engine = s.engine := rfl
@[simp] theorem State.frameDone_frameAnswers (off : Int) : (s.frameDone off).frameAnswers = s.frameAnswers := rfl
@[simp] theorem State.frameDone_events (off : Int) : (s.frameDone off).events = s.events := rfl
@[simp] theorem State.frameDone_response (off : Int) : (s.frameDone off).response = s.response := rfl
@[simp] theorem State.frameDone_agentResponse (off : Int) : (s.frameDone off).agentResponse = s.agentResponse := rfl
@[simp] theorem State.frameDone_draws (off : Int) : (s.frameDone off).draws = s.draws + 1 := rfl
@[simp] theorem State.frameDone_opNcs (off : Int) : (s.frameDone off).opNcs = s.opNcs := rfl
@[simp] theorem State.frameDone_opRt (off : Int) (r : Nat) : (s.frameDone off).opRt r = s.opRt r := rfl
@[simp] theorem State.frameDone_opFlen (off : Int) : (s.frameDone off).opFlen = s.opFlen := rfl
@[simp] theorem State.frameDone_opFb (off : Int) : (s.frameDone off).opFb = s.opFb := rfl
@[simp] theorem State.frameDone_opOffset (off : Int) : (s.frameDone off).opOffset = s.opOffset := rfl
@[simp] theorem State.frameDone_opAlen (off : Int) : (s.frameDone off).opAlen = s.opAlen := rfl
@[simp] theorem State.frameDone_opNcp (off : Int) : (s.frameDone off).opNcp = s.opNcp := rfl
@[simp] theorem State.frameDone_opR (off : Int) : (s.frameDone off).opR = s.opR := rfl
@[simp] theorem State.frameDone_opStart (off : Int) : (s.frameDone off).opStart = s.opStart := rfl
@[simp] theorem State.frameDone_opIdx (off : Int) : (s.frameDone off).opIdx = s.opIdx := rfl
@[simp] theorem State.frameDone_regionWords (off : Int) : (s.frameDone off).regionWords = s.regionWords := rfl
@[simp] theorem State.frameDone_configChecks (off : Int) : (s.frameDone off).configChecks = s.configChecks := rfl
@[simp] theorem State.frameDone_generateChecks (off : Int) : (s.frameDone off).generateChecks = s.generateChecks := rfl
@[simp] theorem State.frameDone_psetDef (off : Int) (j k : Nat) : (s.frameDone off).psetDef j k = s.psetDef j k := rfl

/-! ### framePartial -/

@[simp] theorem State.framePartial_irqEn (off : Int) (good : Nat) : (s.framePartial off good).irqEn = s.irqEn := rfl
@[simp] theorem State.framePartial_cmd (off : Int) (good : Nat) : (s.framePartial off good).cmd = s.cmd := rfl
@[simp] theorem State.framePartial_status (off : Int) (good : Nat) : (s.framePartial off good).status = s.status := rfl
@[simp] theorem State.framePartial_cfg (off : Int) (good : Nat) : (s.framePartial off good).cfg = s.cfg := rfl
@[simp] theorem State.framePartial_results (off : Int) (good : Nat) : (s.framePartial off good).results = s.results := rfl
@[simp] theorem State.framePartial_shadow (off : Int) (good : Nat) : (s.framePartial off good).shadow = s.shadow := rfl
@[simp] theorem State.framePartial_pset (off : Int) (good : Nat) : (s.framePartial off good).pset = s.pset := rfl
@[simp] theorem State.framePartial_grid (off : Int) (good : Nat) : (s.framePartial off good).grid = s.grid := rfl
@[simp] theorem State.framePartial_td (off : Int) (good : Nat) : (s.framePartial off good).td = s.td := rfl
@[simp] theorem State.framePartial_sequencer (off : Int) (good : Nat) : (s.framePartial off good).sequencer = s.sequencer := rfl
@[simp] theorem State.framePartial_issued (off : Int) (good : Nat) : (s.framePartial off good).issued = s.issued := rfl
@[simp] theorem State.framePartial_outstanding (off : Int) (good : Nat) : (s.framePartial off good).outstanding = s.outstanding := rfl
@[simp] theorem State.framePartial_resetAsserted (off : Int) (good : Nat) : (s.framePartial off good).resetAsserted = s.resetAsserted := rfl
@[simp] theorem State.framePartial_raced (off : Int) (good : Nat) : (s.framePartial off good).raced = s.raced := rfl
@[simp] theorem State.framePartial_mem (off : Int) (good : Nat) : (s.framePartial off good).mem = s.frameMem off good := rfl
@[simp] theorem State.framePartial_engine (off : Int) (good : Nat) : (s.framePartial off good).engine = s.engine := rfl
@[simp] theorem State.framePartial_frameAnswers (off : Int) (good : Nat) : (s.framePartial off good).frameAnswers = s.frameAnswers := rfl
@[simp] theorem State.framePartial_events (off : Int) (good : Nat) : (s.framePartial off good).events = s.events := rfl
@[simp] theorem State.framePartial_response (off : Int) (good : Nat) : (s.framePartial off good).response = s.response := rfl
@[simp] theorem State.framePartial_agentResponse (off : Int) (good : Nat) : (s.framePartial off good).agentResponse = s.agentResponse := rfl
@[simp] theorem State.framePartial_draws (off : Int) (good : Nat) : (s.framePartial off good).draws = s.draws + 1 := rfl
@[simp] theorem State.framePartial_opNcs (off : Int) (good : Nat) : (s.framePartial off good).opNcs = s.opNcs := rfl
@[simp] theorem State.framePartial_opRt (off : Int) (good : Nat) (r : Nat) : (s.framePartial off good).opRt r = s.opRt r := rfl
@[simp] theorem State.framePartial_opFlen (off : Int) (good : Nat) : (s.framePartial off good).opFlen = s.opFlen := rfl
@[simp] theorem State.framePartial_opFb (off : Int) (good : Nat) : (s.framePartial off good).opFb = s.opFb := rfl
@[simp] theorem State.framePartial_opOffset (off : Int) (good : Nat) : (s.framePartial off good).opOffset = s.opOffset := rfl
@[simp] theorem State.framePartial_opAlen (off : Int) (good : Nat) : (s.framePartial off good).opAlen = s.opAlen := rfl
@[simp] theorem State.framePartial_opNcp (off : Int) (good : Nat) : (s.framePartial off good).opNcp = s.opNcp := rfl
@[simp] theorem State.framePartial_opR (off : Int) (good : Nat) : (s.framePartial off good).opR = s.opR := rfl
@[simp] theorem State.framePartial_opStart (off : Int) (good : Nat) : (s.framePartial off good).opStart = s.opStart := rfl
@[simp] theorem State.framePartial_opIdx (off : Int) (good : Nat) : (s.framePartial off good).opIdx = s.opIdx := rfl
@[simp] theorem State.framePartial_regionWords (off : Int) (good : Nat) : (s.framePartial off good).regionWords = s.regionWords := rfl
@[simp] theorem State.framePartial_configChecks (off : Int) (good : Nat) : (s.framePartial off good).configChecks = s.configChecks := rfl
@[simp] theorem State.framePartial_generateChecks (off : Int) (good : Nat) : (s.framePartial off good).generateChecks = s.generateChecks := rfl
@[simp] theorem State.framePartial_psetDef (off : Int) (good : Nat) (j k : Nat) : (s.framePartial off good).psetDef j k = s.psetDef j k := rfl

/-! ### setSample -/

@[simp] theorem State.setSample_irqEn (p : Nat) : (s.setSample p).irqEn = s.irqEn := rfl
@[simp] theorem State.setSample_cmd (p : Nat) : (s.setSample p).cmd = s.cmd := rfl
@[simp] theorem State.setSample_status (p : Nat) : (s.setSample p).status = s.status := rfl
@[simp] theorem State.setSample_cfg (p : Nat) : (s.setSample p).cfg = s.cfg := rfl
@[simp] theorem State.setSample_results (p : Nat) : (s.setSample p).results = { s.results with
      qRe := re (rom p), qIm := im (rom p), qPhase := BitVec.ofNat 8 p, qPvalid := true } := rfl
@[simp] theorem State.setSample_shadow (p : Nat) : (s.setSample p).shadow = s.shadow := rfl
@[simp] theorem State.setSample_pset (p : Nat) : (s.setSample p).pset = s.pset := rfl
@[simp] theorem State.setSample_grid (p : Nat) : (s.setSample p).grid = s.grid := rfl
@[simp] theorem State.setSample_td (p : Nat) : (s.setSample p).td = s.td := rfl
@[simp] theorem State.setSample_sequencer (p : Nat) : (s.setSample p).sequencer = s.sequencer := rfl
@[simp] theorem State.setSample_issued (p : Nat) : (s.setSample p).issued = s.issued := rfl
@[simp] theorem State.setSample_outstanding (p : Nat) : (s.setSample p).outstanding = s.outstanding := rfl
@[simp] theorem State.setSample_resetAsserted (p : Nat) : (s.setSample p).resetAsserted = s.resetAsserted := rfl
@[simp] theorem State.setSample_raced (p : Nat) : (s.setSample p).raced = s.raced := rfl
@[simp] theorem State.setSample_mem (p : Nat) : (s.setSample p).mem = s.mem := rfl
@[simp] theorem State.setSample_engine (p : Nat) : (s.setSample p).engine = s.engine := rfl
@[simp] theorem State.setSample_frameAnswers (p : Nat) : (s.setSample p).frameAnswers = s.frameAnswers := rfl
@[simp] theorem State.setSample_events (p : Nat) : (s.setSample p).events = s.events := rfl
@[simp] theorem State.setSample_response (p : Nat) : (s.setSample p).response = s.response := rfl
@[simp] theorem State.setSample_agentResponse (p : Nat) : (s.setSample p).agentResponse = s.agentResponse := rfl
@[simp] theorem State.setSample_draws (p : Nat) : (s.setSample p).draws = s.draws := rfl
@[simp] theorem State.setSample_opNcs (p : Nat) : (s.setSample p).opNcs = s.opNcs := rfl
@[simp] theorem State.setSample_opRt (p : Nat) (r : Nat) : (s.setSample p).opRt r = s.opRt r := rfl
@[simp] theorem State.setSample_opFlen (p : Nat) : (s.setSample p).opFlen = s.opFlen := rfl
@[simp] theorem State.setSample_opFb (p : Nat) : (s.setSample p).opFb = s.opFb := rfl
@[simp] theorem State.setSample_opOffset (p : Nat) : (s.setSample p).opOffset = s.opOffset := rfl
@[simp] theorem State.setSample_opAlen (p : Nat) : (s.setSample p).opAlen = s.opAlen := rfl
@[simp] theorem State.setSample_opNcp (p : Nat) : (s.setSample p).opNcp = s.opNcp := rfl
@[simp] theorem State.setSample_opR (p : Nat) : (s.setSample p).opR = s.opR := rfl
@[simp] theorem State.setSample_opStart (p : Nat) : (s.setSample p).opStart = s.opStart := rfl
@[simp] theorem State.setSample_opIdx (p : Nat) : (s.setSample p).opIdx = s.opIdx := rfl
@[simp] theorem State.setSample_regionWords (p : Nat) : (s.setSample p).regionWords = s.regionWords := rfl
@[simp] theorem State.setSample_configChecks (p : Nat) : (s.setSample p).configChecks = s.configChecks := rfl
@[simp] theorem State.setSample_generateChecks (p : Nat) : (s.setSample p).generateChecks = s.generateChecks := rfl
@[simp] theorem State.setSample_psetDef (p : Nat) (j k : Nat) : (s.setSample p).psetDef j k = s.psetDef j k := rfl

/-! ### setCoef -/

@[simp] theorem State.setCoef_irqEn (w : Sample) : (s.setCoef w).irqEn = s.irqEn := rfl
@[simp] theorem State.setCoef_cmd (w : Sample) : (s.setCoef w).cmd = s.cmd := rfl
@[simp] theorem State.setCoef_status (w : Sample) : (s.setCoef w).status = s.status := rfl
@[simp] theorem State.setCoef_cfg (w : Sample) : (s.setCoef w).cfg = s.cfg := rfl
@[simp] theorem State.setCoef_results (w : Sample) : (s.setCoef w).results = { s.results with qRe := re w, qIm := im w, qPhase := 0#8, qPvalid := false } := rfl
@[simp] theorem State.setCoef_shadow (w : Sample) : (s.setCoef w).shadow = s.shadow := rfl
@[simp] theorem State.setCoef_pset (w : Sample) : (s.setCoef w).pset = s.pset := rfl
@[simp] theorem State.setCoef_grid (w : Sample) : (s.setCoef w).grid = s.grid := rfl
@[simp] theorem State.setCoef_td (w : Sample) : (s.setCoef w).td = s.td := rfl
@[simp] theorem State.setCoef_sequencer (w : Sample) : (s.setCoef w).sequencer = s.sequencer := rfl
@[simp] theorem State.setCoef_issued (w : Sample) : (s.setCoef w).issued = s.issued := rfl
@[simp] theorem State.setCoef_outstanding (w : Sample) : (s.setCoef w).outstanding = s.outstanding := rfl
@[simp] theorem State.setCoef_resetAsserted (w : Sample) : (s.setCoef w).resetAsserted = s.resetAsserted := rfl
@[simp] theorem State.setCoef_raced (w : Sample) : (s.setCoef w).raced = s.raced := rfl
@[simp] theorem State.setCoef_mem (w : Sample) : (s.setCoef w).mem = s.mem := rfl
@[simp] theorem State.setCoef_engine (w : Sample) : (s.setCoef w).engine = s.engine := rfl
@[simp] theorem State.setCoef_frameAnswers (w : Sample) : (s.setCoef w).frameAnswers = s.frameAnswers := rfl
@[simp] theorem State.setCoef_events (w : Sample) : (s.setCoef w).events = s.events := rfl
@[simp] theorem State.setCoef_response (w : Sample) : (s.setCoef w).response = s.response := rfl
@[simp] theorem State.setCoef_agentResponse (w : Sample) : (s.setCoef w).agentResponse = s.agentResponse := rfl
@[simp] theorem State.setCoef_draws (w : Sample) : (s.setCoef w).draws = s.draws := rfl
@[simp] theorem State.setCoef_opNcs (w : Sample) : (s.setCoef w).opNcs = s.opNcs := rfl
@[simp] theorem State.setCoef_opRt (w : Sample) (r : Nat) : (s.setCoef w).opRt r = s.opRt r := rfl
@[simp] theorem State.setCoef_opFlen (w : Sample) : (s.setCoef w).opFlen = s.opFlen := rfl
@[simp] theorem State.setCoef_opFb (w : Sample) : (s.setCoef w).opFb = s.opFb := rfl
@[simp] theorem State.setCoef_opOffset (w : Sample) : (s.setCoef w).opOffset = s.opOffset := rfl
@[simp] theorem State.setCoef_opAlen (w : Sample) : (s.setCoef w).opAlen = s.opAlen := rfl
@[simp] theorem State.setCoef_opNcp (w : Sample) : (s.setCoef w).opNcp = s.opNcp := rfl
@[simp] theorem State.setCoef_opR (w : Sample) : (s.setCoef w).opR = s.opR := rfl
@[simp] theorem State.setCoef_opStart (w : Sample) : (s.setCoef w).opStart = s.opStart := rfl
@[simp] theorem State.setCoef_opIdx (w : Sample) : (s.setCoef w).opIdx = s.opIdx := rfl
@[simp] theorem State.setCoef_regionWords (w : Sample) : (s.setCoef w).regionWords = s.regionWords := rfl
@[simp] theorem State.setCoef_configChecks (w : Sample) : (s.setCoef w).configChecks = s.configChecks := rfl
@[simp] theorem State.setCoef_generateChecks (w : Sample) : (s.setCoef w).generateChecks = s.generateChecks := rfl
@[simp] theorem State.setCoef_psetDef (w : Sample) (j k : Nat) : (s.setCoef w).psetDef j k = s.psetDef j k := rfl

/-! ### fillPset -/

@[simp] theorem State.fillPset_irqEn : s.fillPset.irqEn = s.irqEn := rfl
@[simp] theorem State.fillPset_cmd : s.fillPset.cmd = s.cmd := rfl
@[simp] theorem State.fillPset_status : s.fillPset.status = { s.status with psetValid := true } := rfl
@[simp] theorem State.fillPset_cfg : s.fillPset.cfg = s.cfg := rfl
@[simp] theorem State.fillPset_results : s.fillPset.results = s.results := rfl
@[simp] theorem State.fillPset_shadow : s.fillPset.shadow = s.shadow := rfl
@[simp] theorem State.fillPset_pset : s.fillPset.pset = fill Config.numPreambles fun i => fill Config.seqLen fun k => s.psetDef i k := rfl
@[simp] theorem State.fillPset_grid : s.fillPset.grid = s.grid := rfl
@[simp] theorem State.fillPset_td : s.fillPset.td = s.td := rfl
@[simp] theorem State.fillPset_sequencer : s.fillPset.sequencer = s.sequencer := rfl
@[simp] theorem State.fillPset_issued : s.fillPset.issued = s.issued := rfl
@[simp] theorem State.fillPset_outstanding : s.fillPset.outstanding = s.outstanding := rfl
@[simp] theorem State.fillPset_resetAsserted : s.fillPset.resetAsserted = s.resetAsserted := rfl
@[simp] theorem State.fillPset_raced : s.fillPset.raced = s.raced := rfl
@[simp] theorem State.fillPset_mem : s.fillPset.mem = s.mem := rfl
@[simp] theorem State.fillPset_engine : s.fillPset.engine = s.engine := rfl
@[simp] theorem State.fillPset_frameAnswers : s.fillPset.frameAnswers = s.frameAnswers := rfl
@[simp] theorem State.fillPset_events : s.fillPset.events = s.events := rfl
@[simp] theorem State.fillPset_response : s.fillPset.response = s.response := rfl
@[simp] theorem State.fillPset_agentResponse : s.fillPset.agentResponse = s.agentResponse := rfl
@[simp] theorem State.fillPset_draws : s.fillPset.draws = s.draws := rfl
@[simp] theorem State.fillPset_opNcs : s.fillPset.opNcs = s.opNcs := rfl
@[simp] theorem State.fillPset_opRt (r : Nat) : s.fillPset.opRt r = s.opRt r := rfl
@[simp] theorem State.fillPset_opFlen : s.fillPset.opFlen = s.opFlen := rfl
@[simp] theorem State.fillPset_opFb : s.fillPset.opFb = s.opFb := rfl
@[simp] theorem State.fillPset_opOffset : s.fillPset.opOffset = s.opOffset := rfl
@[simp] theorem State.fillPset_opAlen : s.fillPset.opAlen = s.opAlen := rfl
@[simp] theorem State.fillPset_opNcp : s.fillPset.opNcp = s.opNcp := rfl
@[simp] theorem State.fillPset_opR : s.fillPset.opR = s.opR := rfl
@[simp] theorem State.fillPset_opStart : s.fillPset.opStart = s.opStart := rfl
@[simp] theorem State.fillPset_opIdx : s.fillPset.opIdx = s.opIdx := rfl
@[simp] theorem State.fillPset_regionWords : s.fillPset.regionWords = s.regionWords := rfl
@[simp] theorem State.fillPset_configChecks : s.fillPset.configChecks = s.configChecks := rfl
@[simp] theorem State.fillPset_generateChecks : s.fillPset.generateChecks = s.generateChecks := rfl
@[simp] theorem State.fillPset_psetDef (j k : Nat) : s.fillPset.psetDef j k = s.psetDef j k := rfl

/-! ### writeGrid -/

@[simp] theorem State.writeGrid_irqEn : s.writeGrid.irqEn = s.irqEn := rfl
@[simp] theorem State.writeGrid_cmd : s.writeGrid.cmd = s.cmd := rfl
@[simp] theorem State.writeGrid_status : s.writeGrid.status = s.status := rfl
@[simp] theorem State.writeGrid_cfg : s.writeGrid.cfg = s.cfg := rfl
@[simp] theorem State.writeGrid_results : s.writeGrid.results = s.results := rfl
@[simp] theorem State.writeGrid_shadow : s.writeGrid.shadow = s.shadow := rfl
@[simp] theorem State.writeGrid_pset : s.writeGrid.pset = s.pset := rfl
@[simp] theorem State.writeGrid_grid : s.writeGrid.grid = fill Config.gridSize fun j =>
      if s.opStart ≤ (j : Int) ∧ (j : Int) < s.opStart + Config.seqLen
      then s.preambleWord ((j : Int) - s.opStart).toNat else zeroSample := rfl
@[simp] theorem State.writeGrid_td : s.writeGrid.td = s.td := rfl
@[simp] theorem State.writeGrid_sequencer : s.writeGrid.sequencer = s.sequencer := rfl
@[simp] theorem State.writeGrid_issued : s.writeGrid.issued = s.issued := rfl
@[simp] theorem State.writeGrid_outstanding : s.writeGrid.outstanding = s.outstanding := rfl
@[simp] theorem State.writeGrid_resetAsserted : s.writeGrid.resetAsserted = s.resetAsserted := rfl
@[simp] theorem State.writeGrid_raced : s.writeGrid.raced = s.raced := rfl
@[simp] theorem State.writeGrid_mem : s.writeGrid.mem = s.mem := rfl
@[simp] theorem State.writeGrid_engine : s.writeGrid.engine = s.engine := rfl
@[simp] theorem State.writeGrid_frameAnswers : s.writeGrid.frameAnswers = s.frameAnswers := rfl
@[simp] theorem State.writeGrid_events : s.writeGrid.events = s.events := rfl
@[simp] theorem State.writeGrid_response : s.writeGrid.response = s.response := rfl
@[simp] theorem State.writeGrid_agentResponse : s.writeGrid.agentResponse = s.agentResponse := rfl
@[simp] theorem State.writeGrid_draws : s.writeGrid.draws = s.draws := rfl
@[simp] theorem State.writeGrid_opNcs : s.writeGrid.opNcs = s.opNcs := rfl
@[simp] theorem State.writeGrid_opRt (r : Nat) : s.writeGrid.opRt r = s.opRt r := rfl
@[simp] theorem State.writeGrid_opFlen : s.writeGrid.opFlen = s.opFlen := rfl
@[simp] theorem State.writeGrid_opFb : s.writeGrid.opFb = s.opFb := rfl
@[simp] theorem State.writeGrid_opOffset : s.writeGrid.opOffset = s.opOffset := rfl
@[simp] theorem State.writeGrid_opAlen : s.writeGrid.opAlen = s.opAlen := rfl
@[simp] theorem State.writeGrid_opNcp : s.writeGrid.opNcp = s.opNcp := rfl
@[simp] theorem State.writeGrid_opR : s.writeGrid.opR = s.opR := rfl
@[simp] theorem State.writeGrid_opStart : s.writeGrid.opStart = s.opStart := rfl
@[simp] theorem State.writeGrid_opIdx : s.writeGrid.opIdx = s.opIdx := rfl
@[simp] theorem State.writeGrid_regionWords : s.writeGrid.regionWords = s.regionWords := rfl
@[simp] theorem State.writeGrid_configChecks : s.writeGrid.configChecks = s.configChecks := rfl
@[simp] theorem State.writeGrid_generateChecks : s.writeGrid.generateChecks = s.generateChecks := rfl
@[simp] theorem State.writeGrid_psetDef (j k : Nat) : s.writeGrid.psetDef j k = s.psetDef j k := rfl

/-! ### swapGrid -/

@[simp] theorem State.swapGrid_irqEn : s.swapGrid.irqEn = s.irqEn := rfl
@[simp] theorem State.swapGrid_cmd : s.swapGrid.cmd = s.cmd := rfl
@[simp] theorem State.swapGrid_status : s.swapGrid.status = s.status := rfl
@[simp] theorem State.swapGrid_cfg : s.swapGrid.cfg = s.cfg := rfl
@[simp] theorem State.swapGrid_results : s.swapGrid.results = s.results := rfl
@[simp] theorem State.swapGrid_shadow : s.swapGrid.shadow = s.shadow := rfl
@[simp] theorem State.swapGrid_pset : s.swapGrid.pset = s.pset := rfl
@[simp] theorem State.swapGrid_grid : s.swapGrid.grid = fill Config.gridSize fun j => word s.grid ((j + Config.gridSize / 2) % Config.gridSize) := rfl
@[simp] theorem State.swapGrid_td : s.swapGrid.td = s.td := rfl
@[simp] theorem State.swapGrid_sequencer : s.swapGrid.sequencer = s.sequencer := rfl
@[simp] theorem State.swapGrid_issued : s.swapGrid.issued = s.issued := rfl
@[simp] theorem State.swapGrid_outstanding : s.swapGrid.outstanding = s.outstanding := rfl
@[simp] theorem State.swapGrid_resetAsserted : s.swapGrid.resetAsserted = s.resetAsserted := rfl
@[simp] theorem State.swapGrid_raced : s.swapGrid.raced = s.raced := rfl
@[simp] theorem State.swapGrid_mem : s.swapGrid.mem = s.mem := rfl
@[simp] theorem State.swapGrid_engine : s.swapGrid.engine = s.engine := rfl
@[simp] theorem State.swapGrid_frameAnswers : s.swapGrid.frameAnswers = s.frameAnswers := rfl
@[simp] theorem State.swapGrid_events : s.swapGrid.events = s.events := rfl
@[simp] theorem State.swapGrid_response : s.swapGrid.response = s.response := rfl
@[simp] theorem State.swapGrid_agentResponse : s.swapGrid.agentResponse = s.agentResponse := rfl
@[simp] theorem State.swapGrid_draws : s.swapGrid.draws = s.draws := rfl
@[simp] theorem State.swapGrid_opNcs : s.swapGrid.opNcs = s.opNcs := rfl
@[simp] theorem State.swapGrid_opRt (r : Nat) : s.swapGrid.opRt r = s.opRt r := rfl
@[simp] theorem State.swapGrid_opFlen : s.swapGrid.opFlen = s.opFlen := rfl
@[simp] theorem State.swapGrid_opFb : s.swapGrid.opFb = s.opFb := rfl
@[simp] theorem State.swapGrid_opOffset : s.swapGrid.opOffset = s.opOffset := rfl
@[simp] theorem State.swapGrid_opAlen : s.swapGrid.opAlen = s.opAlen := rfl
@[simp] theorem State.swapGrid_opNcp : s.swapGrid.opNcp = s.opNcp := rfl
@[simp] theorem State.swapGrid_opR : s.swapGrid.opR = s.opR := rfl
@[simp] theorem State.swapGrid_opStart : s.swapGrid.opStart = s.opStart := rfl
@[simp] theorem State.swapGrid_opIdx : s.swapGrid.opIdx = s.opIdx := rfl
@[simp] theorem State.swapGrid_regionWords : s.swapGrid.regionWords = s.regionWords := rfl
@[simp] theorem State.swapGrid_configChecks : s.swapGrid.configChecks = s.configChecks := rfl
@[simp] theorem State.swapGrid_generateChecks : s.swapGrid.generateChecks = s.generateChecks := rfl
@[simp] theorem State.swapGrid_psetDef (j k : Nat) : s.swapGrid.psetDef j k = s.psetDef j k := rfl

/-! ### latchBlock -/

@[simp] theorem State.latchBlock_irqEn : s.latchBlock.irqEn = s.irqEn := rfl
@[simp] theorem State.latchBlock_cmd : s.latchBlock.cmd = s.cmd := rfl
@[simp] theorem State.latchBlock_status : s.latchBlock.status = { s.status with asmValid := true } := rfl
@[simp] theorem State.latchBlock_cfg : s.latchBlock.cfg = s.cfg := rfl
@[simp] theorem State.latchBlock_results : s.latchBlock.results = { s.results with
      asmCp := BitVec.ofNat 16 s.opNcp, asmR := BitVec.ofInt 16 s.opR, asmLen := BitVec.ofInt 26 s.opAlen } := rfl
@[simp] theorem State.latchBlock_shadow : s.latchBlock.shadow = s.shadow := rfl
@[simp] theorem State.latchBlock_pset : s.latchBlock.pset = s.pset := rfl
@[simp] theorem State.latchBlock_grid : s.latchBlock.grid = s.grid := rfl
@[simp] theorem State.latchBlock_td : s.latchBlock.td = s.td := rfl
@[simp] theorem State.latchBlock_sequencer : s.latchBlock.sequencer = s.sequencer := rfl
@[simp] theorem State.latchBlock_issued : s.latchBlock.issued = s.issued := rfl
@[simp] theorem State.latchBlock_outstanding : s.latchBlock.outstanding = s.outstanding := rfl
@[simp] theorem State.latchBlock_resetAsserted : s.latchBlock.resetAsserted = s.resetAsserted := rfl
@[simp] theorem State.latchBlock_raced : s.latchBlock.raced = s.raced := rfl
@[simp] theorem State.latchBlock_mem : s.latchBlock.mem = s.mem := rfl
@[simp] theorem State.latchBlock_engine : s.latchBlock.engine = s.engine := rfl
@[simp] theorem State.latchBlock_frameAnswers : s.latchBlock.frameAnswers = s.frameAnswers := rfl
@[simp] theorem State.latchBlock_events : s.latchBlock.events = s.events := rfl
@[simp] theorem State.latchBlock_response : s.latchBlock.response = s.response := rfl
@[simp] theorem State.latchBlock_agentResponse : s.latchBlock.agentResponse = s.agentResponse := rfl
@[simp] theorem State.latchBlock_draws : s.latchBlock.draws = s.draws := rfl
@[simp] theorem State.latchBlock_opNcs : s.latchBlock.opNcs = s.opNcs := rfl
@[simp] theorem State.latchBlock_opRt (r : Nat) : s.latchBlock.opRt r = s.opRt r := rfl
@[simp] theorem State.latchBlock_opFlen : s.latchBlock.opFlen = s.opFlen := rfl
@[simp] theorem State.latchBlock_opFb : s.latchBlock.opFb = s.opFb := rfl
@[simp] theorem State.latchBlock_opOffset : s.latchBlock.opOffset = s.opOffset := rfl
@[simp] theorem State.latchBlock_opAlen : s.latchBlock.opAlen = s.opAlen := rfl
@[simp] theorem State.latchBlock_opNcp : s.latchBlock.opNcp = s.opNcp := rfl
@[simp] theorem State.latchBlock_opR : s.latchBlock.opR = s.opR := rfl
@[simp] theorem State.latchBlock_opStart : s.latchBlock.opStart = s.opStart := rfl
@[simp] theorem State.latchBlock_opIdx : s.latchBlock.opIdx = s.opIdx := rfl
@[simp] theorem State.latchBlock_regionWords : s.latchBlock.regionWords = s.regionWords := rfl
@[simp] theorem State.latchBlock_configChecks : s.latchBlock.configChecks = s.configChecks := rfl
@[simp] theorem State.latchBlock_generateChecks : s.latchBlock.generateChecks = s.generateChecks := rfl
@[simp] theorem State.latchBlock_psetDef (j k : Nat) : s.latchBlock.psetDef j k = s.psetDef j k := rfl

/-! ### storeOffset -/

@[simp] theorem State.storeOffset_irqEn : s.storeOffset.irqEn = s.irqEn := rfl
@[simp] theorem State.storeOffset_cmd : s.storeOffset.cmd = s.cmd := rfl
@[simp] theorem State.storeOffset_status : s.storeOffset.status = s.status := rfl
@[simp] theorem State.storeOffset_cfg : s.storeOffset.cfg = s.cfg := rfl
@[simp] theorem State.storeOffset_results : s.storeOffset.results = { s.results with frameOffset := BitVec.ofNat 32 s.opOffset } := rfl
@[simp] theorem State.storeOffset_shadow : s.storeOffset.shadow = s.shadow := rfl
@[simp] theorem State.storeOffset_pset : s.storeOffset.pset = s.pset := rfl
@[simp] theorem State.storeOffset_grid : s.storeOffset.grid = s.grid := rfl
@[simp] theorem State.storeOffset_td : s.storeOffset.td = s.td := rfl
@[simp] theorem State.storeOffset_sequencer : s.storeOffset.sequencer = s.sequencer := rfl
@[simp] theorem State.storeOffset_issued : s.storeOffset.issued = s.issued := rfl
@[simp] theorem State.storeOffset_outstanding : s.storeOffset.outstanding = s.outstanding := rfl
@[simp] theorem State.storeOffset_resetAsserted : s.storeOffset.resetAsserted = s.resetAsserted := rfl
@[simp] theorem State.storeOffset_raced : s.storeOffset.raced = s.raced := rfl
@[simp] theorem State.storeOffset_mem : s.storeOffset.mem = s.mem := rfl
@[simp] theorem State.storeOffset_engine : s.storeOffset.engine = s.engine := rfl
@[simp] theorem State.storeOffset_frameAnswers : s.storeOffset.frameAnswers = s.frameAnswers := rfl
@[simp] theorem State.storeOffset_events : s.storeOffset.events = s.events := rfl
@[simp] theorem State.storeOffset_response : s.storeOffset.response = s.response := rfl
@[simp] theorem State.storeOffset_agentResponse : s.storeOffset.agentResponse = s.agentResponse := rfl
@[simp] theorem State.storeOffset_draws : s.storeOffset.draws = s.draws := rfl
@[simp] theorem State.storeOffset_opNcs : s.storeOffset.opNcs = s.opNcs := rfl
@[simp] theorem State.storeOffset_opRt (r : Nat) : s.storeOffset.opRt r = s.opRt r := rfl
@[simp] theorem State.storeOffset_opFlen : s.storeOffset.opFlen = s.opFlen := rfl
@[simp] theorem State.storeOffset_opFb : s.storeOffset.opFb = s.opFb := rfl
@[simp] theorem State.storeOffset_opOffset : s.storeOffset.opOffset = s.opOffset := rfl
@[simp] theorem State.storeOffset_opAlen : s.storeOffset.opAlen = s.opAlen := rfl
@[simp] theorem State.storeOffset_opNcp : s.storeOffset.opNcp = s.opNcp := rfl
@[simp] theorem State.storeOffset_opR : s.storeOffset.opR = s.opR := rfl
@[simp] theorem State.storeOffset_opStart : s.storeOffset.opStart = s.opStart := rfl
@[simp] theorem State.storeOffset_opIdx : s.storeOffset.opIdx = s.opIdx := rfl
@[simp] theorem State.storeOffset_regionWords : s.storeOffset.regionWords = s.regionWords := rfl
@[simp] theorem State.storeOffset_configChecks : s.storeOffset.configChecks = s.configChecks := rfl
@[simp] theorem State.storeOffset_generateChecks : s.storeOffset.generateChecks = s.generateChecks := rfl
@[simp] theorem State.storeOffset_psetDef (j k : Nat) : s.storeOffset.psetDef j k = s.psetDef j k := rfl

/-! ### dropWrite -/

@[simp] theorem State.dropWrite_irqEn : s.dropWrite.irqEn = s.irqEn := rfl
@[simp] theorem State.dropWrite_cmd : s.dropWrite.cmd = s.cmd := rfl
@[simp] theorem State.dropWrite_status : s.dropWrite.status = { s.status with wbusy := true } := rfl
@[simp] theorem State.dropWrite_cfg : s.dropWrite.cfg = s.cfg := rfl
@[simp] theorem State.dropWrite_results : s.dropWrite.results = s.results := rfl
@[simp] theorem State.dropWrite_shadow : s.dropWrite.shadow = s.shadow := rfl
@[simp] theorem State.dropWrite_pset : s.dropWrite.pset = s.pset := rfl
@[simp] theorem State.dropWrite_grid : s.dropWrite.grid = s.grid := rfl
@[simp] theorem State.dropWrite_td : s.dropWrite.td = s.td := rfl
@[simp] theorem State.dropWrite_sequencer : s.dropWrite.sequencer = s.sequencer := rfl
@[simp] theorem State.dropWrite_issued : s.dropWrite.issued = s.issued := rfl
@[simp] theorem State.dropWrite_outstanding : s.dropWrite.outstanding = s.outstanding := rfl
@[simp] theorem State.dropWrite_resetAsserted : s.dropWrite.resetAsserted = s.resetAsserted := rfl
@[simp] theorem State.dropWrite_raced : s.dropWrite.raced = s.raced := rfl
@[simp] theorem State.dropWrite_mem : s.dropWrite.mem = s.mem := rfl
@[simp] theorem State.dropWrite_engine : s.dropWrite.engine = s.engine := rfl
@[simp] theorem State.dropWrite_frameAnswers : s.dropWrite.frameAnswers = s.frameAnswers := rfl
@[simp] theorem State.dropWrite_events : s.dropWrite.events = s.events := rfl
@[simp] theorem State.dropWrite_response : s.dropWrite.response = s.response := rfl
@[simp] theorem State.dropWrite_agentResponse : s.dropWrite.agentResponse = s.agentResponse := rfl
@[simp] theorem State.dropWrite_draws : s.dropWrite.draws = s.draws := rfl
@[simp] theorem State.dropWrite_opNcs : s.dropWrite.opNcs = s.opNcs := rfl
@[simp] theorem State.dropWrite_opRt (r : Nat) : s.dropWrite.opRt r = s.opRt r := rfl
@[simp] theorem State.dropWrite_opFlen : s.dropWrite.opFlen = s.opFlen := rfl
@[simp] theorem State.dropWrite_opFb : s.dropWrite.opFb = s.opFb := rfl
@[simp] theorem State.dropWrite_opOffset : s.dropWrite.opOffset = s.opOffset := rfl
@[simp] theorem State.dropWrite_opAlen : s.dropWrite.opAlen = s.opAlen := rfl
@[simp] theorem State.dropWrite_opNcp : s.dropWrite.opNcp = s.opNcp := rfl
@[simp] theorem State.dropWrite_opR : s.dropWrite.opR = s.opR := rfl
@[simp] theorem State.dropWrite_opStart : s.dropWrite.opStart = s.opStart := rfl
@[simp] theorem State.dropWrite_opIdx : s.dropWrite.opIdx = s.opIdx := rfl
@[simp] theorem State.dropWrite_regionWords : s.dropWrite.regionWords = s.regionWords := rfl
@[simp] theorem State.dropWrite_configChecks : s.dropWrite.configChecks = s.configChecks := rfl
@[simp] theorem State.dropWrite_generateChecks : s.dropWrite.generateChecks = s.generateChecks := rfl
@[simp] theorem State.dropWrite_psetDef (j k : Nat) : s.dropWrite.psetDef j k = s.psetDef j k := rfl

/-! ### doReset -/

@[simp] theorem State.doReset_irqEn : s.doReset.irqEn = false := rfl
@[simp] theorem State.doReset_cmd : s.doReset.cmd = 0#32 := rfl
@[simp] theorem State.doReset_status : s.doReset.status = Status.reset := rfl
@[simp] theorem State.doReset_cfg : s.doReset.cfg = ConfigRegs.reset := rfl
@[simp] theorem State.doReset_results : s.doReset.results = Results.reset := rfl
@[simp] theorem State.doReset_shadow : s.doReset.shadow = Results.reset := rfl
@[simp] theorem State.doReset_pset : s.doReset.pset = anyPset s.draws := rfl
@[simp] theorem State.doReset_grid : s.doReset.grid = anyWords Config.gridSize (s.draws + 1) := rfl
@[simp] theorem State.doReset_td : s.doReset.td = anyWords Config.gridSize (s.draws + 2) := rfl
@[simp] theorem State.doReset_sequencer : s.doReset.sequencer = .idle := rfl
@[simp] theorem State.doReset_issued : s.doReset.issued = 0 := rfl
@[simp] theorem State.doReset_outstanding : s.doReset.outstanding = 0 := rfl
@[simp] theorem State.doReset_resetAsserted : s.doReset.resetAsserted = s.resetAsserted := rfl
@[simp] theorem State.doReset_raced : s.doReset.raced = false := rfl
@[simp] theorem State.doReset_mem : s.doReset.mem = if s.issued = 0 then s.mem else s.spoiledRegion (s.draws + 3) := rfl
@[simp] theorem State.doReset_engine : s.doReset.engine = s.engineAfterReset := rfl
@[simp] theorem State.doReset_frameAnswers : s.doReset.frameAnswers = s.frameAfterReset := rfl
@[simp] theorem State.doReset_events : s.doReset.events = s.events := rfl
@[simp] theorem State.doReset_response : s.doReset.response = s.response := rfl
@[simp] theorem State.doReset_agentResponse : s.doReset.agentResponse = s.agentResponse := rfl
@[simp] theorem State.doReset_draws : s.doReset.draws = s.draws + 4 := rfl

end Sys2Proof.Machine
end

