-- ==== Sys2Proof/Laws/Ops.lean ====
section
/-! SUPPORT. What each shared operation can do, said once: checks, polls of the external agents, the transform and
frame stages, and the end of a command. -/

namespace Sys2Proof.Machine

/-! ### Checks -/

@[simp] theorem firstError_nil : firstError [] = none := rfl

@[simp] theorem firstError_cons (b : Bool) (e : Err) (cs : Checks) :
    firstError ((b, e) :: cs) = if b then some e else firstError cs := by
  cases b <;> rfl

theorem firstError_cons_decide (p : Prop) [Decidable p] (e : Err) (cs : Checks) :
    firstError ((decide p, e) :: cs) = if p then some e else firstError cs := by
  by_cases h : p <;> simp [h]

theorem firstError_append (cs ds : Checks) : firstError (cs ++ ds) = (firstError cs).or (firstError ds) := by
  induction cs with
  | nil => rfl
  | cons c cs ih =>
    obtain ⟨b, e⟩ := c
    cases b
    · simpa using ih
    · rfl

theorem firstError_append_eq_none {cs ds : Checks} :
    firstError (cs ++ ds) = none ↔ firstError cs = none ∧ firstError ds = none := by
  rw [firstError_append]
  cases firstError cs <;> simp

theorem checked_of_error {s : State} {cs : Checks} {body : State → Progress} {e : Err}
    (h : firstError cs = some e) : s.checked cs body = .failed s e := by
  simp only [State.checked, h]

theorem checked_of_pass {s : State} {cs : Checks} {body : State → Progress} (h : firstError cs = none) :
    s.checked cs body = body s := by
  simp only [State.checked, h]

@[simp] theorem finish_done (s : State) : (Progress.done s).finish = s.complete .none := rfl
@[simp] theorem finish_failed (s : State) (e : Err) : (Progress.failed s e).finish = s.complete e := rfl
@[simp] theorem finish_waiting (s : State) : (Progress.waiting s).finish = s := rfl
@[simp] theorem andThen_done (s : State) (k : State → Progress) : (Progress.done s).andThen k = k s := rfl
@[simp] theorem andThen_failed (s : State) (e : Err) (k : State → Progress) :
    (Progress.failed s e).andThen k = .failed s e := rfl
@[simp] theorem andThen_waiting (s : State) (k : State → Progress) :
    (Progress.waiting s).andThen k = .waiting s := rfl

/-! ### Every command answers a next state (60_exceptions.md R609) -/

/-- Every error's code and detail are the row's (60_exceptions.md R602). -/
theorem complete_eq_withRecord (e : Err) (s : State) :
    s.complete e = { s with
      status := { s.status with errCode := e.code, errDetail := e.detail, done := true }
      sequencer := .idle, issued := 0, outstanding := 0 } := rfl

/-! ### The transform engine -/

/-- A look at the engine port changes only the answers left and the count of draws. -/
theorem pollEngine_state (s : State) : ∃ l d, s.pollEngine.2 = { s with engine := l, draws := d } := by
  unfold State.pollEngine
  split
  · exact ⟨s.engine, s.draws + 1, rfl⟩
  · exact ⟨s.engine, s.draws, rfl⟩
  · exact ⟨_, s.draws, rfl⟩

theorem pollEngine_scripted {s : State} {a : EngineAnswer} {l : List EngineAnswer} (h : s.engine = a :: l)
    (ha : a ≠ .never) : s.pollEngine = (a, { s with engine := l }) := by
  unfold State.pollEngine
  rw [h]
  cases a <;> first | rfl | exact absurd rfl ha

theorem pollEngine_never {s : State} {l : List EngineAnswer} (h : s.engine = .never :: l) :
    s.pollEngine = (.never, s) := by
  unfold State.pollEngine
  rw [h]

/-- The three ways the transform stage can go, from the state `t` after the look at the engine port. -/
theorem transformAnswer_cases (i : Instr) (s : State) :
    ∃ l d, let t : State := { s with engine := l, draws := d }
      s.transformAnswer i = .done t.release.storeBlock ∨
      s.transformAnswer i = .failed t.release.spoilBlock .engineFail ∨
      s.transformAnswer i = .waiting (t.waitAt i .engine) := by
  obtain ⟨l, d, h⟩ := pollEngine_state s
  refine ⟨l, d, ?_⟩
  unfold State.transformAnswer
  rcases hp : s.pollEngine with ⟨a, t⟩
  rw [hp] at h
  simp only at h
  subst h
  cases a <;> simp

theorem transformAnswer_success {s : State} {l : List EngineAnswer} (i : Instr) (h : s.engine = .success :: l) :
    s.transformAnswer i = .done (State.storeBlock (State.release { s with engine := l })) := by
  unfold State.transformAnswer
  rw [pollEngine_scripted h (by decide)]

theorem transformAnswer_fail {s : State} {l : List EngineAnswer} (i : Instr) (h : s.engine = .fail :: l) :
    s.transformAnswer i = .failed (State.spoilBlock (State.release { s with engine := l })) .engineFail := by
  unfold State.transformAnswer
  rw [pollEngine_scripted h (by decide)]

theorem transformAnswer_notYet {s : State} {l : List EngineAnswer} (i : Instr) (h : s.engine = .notYet :: l) :
    s.transformAnswer i = .waiting (State.waitAt i .engine { s with engine := l }) := by
  unfold State.transformAnswer
  rw [pollEngine_scripted h (by decide)]

theorem transformAnswer_never {s : State} {l : List EngineAnswer} (i : Instr) (h : s.engine = .never :: l) :
    s.transformAnswer i = .waiting (s.waitAt i .engine) := by
  unfold State.transformAnswer
  rw [pollEngine_never h]

/-! ### Frame memory -/

/-- A look at the frame port changes only the answers left and the count of draws. -/
theorem pollFrame_state (s : State) : ∃ l d, s.pollFrame.2 = { s with frameAnswers := l, draws := d } := by
  unfold State.pollFrame
  split
  · exact ⟨s.frameAnswers, s.draws + 1, rfl⟩
  · exact ⟨s.frameAnswers, s.draws, rfl⟩
  · exact ⟨_, s.draws, rfl⟩

theorem pollFrame_okay {s : State} {l : List FrameAnswer} (h : s.frameAnswers = .okay :: l) :
    s.pollFrame = (.okay, { s with frameAnswers := l }) := by
  unfold State.pollFrame
  rw [h]

theorem pollFrame_error {s : State} {je : Nat} {l : List FrameAnswer} (h : s.frameAnswers = .error je :: l) :
    s.pollFrame = (.error je, { s with frameAnswers := l }) := by
  unfold State.pollFrame
  rw [h]

theorem pollFrame_never {s : State} {n o : Nat} {l : List FrameAnswer} (h : s.frameAnswers = .never n o :: l) :
    s.pollFrame = (.never n o, s) := by
  unfold State.pollFrame
  rw [h]

/-- The ways the frame stage can go, from the state `t` after the look at the frame port. A wait never lowers the
writes issued, issues no more than the frame has, and leaves no more unanswered than issued. -/
theorem frameStage_cases (i : Instr) (off : Int) (s : State) :
    ∃ l d, let t : State := { s with frameAnswers := l, draws := d }
      s.frameStage i off = .done (t.frameDone off) ∨
      (∃ je, je < s.opFlen ∧ s.frameStage i off = .failed (t.framePartial off je) .busWriteErr) ∨
      (∃ n o, s.frameStage i off = .waiting (t.frameWait i n o) ∧ s.issued ≤ n ∧ (n ≤ s.issued ∨ n ≤ s.opFlen)
        ∧ (s.issued = 0 → 0 < s.opFlen → o ≤ n) ∧ (0 < s.issued → o ≤ n)) := by
  obtain ⟨l, d, h⟩ := pollFrame_state s
  refine ⟨l, d, ?_⟩
  unfold State.frameStage
  rcases hp : s.pollFrame with ⟨a, t⟩
  rw [hp] at h
  simp only at h
  subst h
  cases a with
  | okay => exact .inl rfl
  | error je =>
    by_cases hj : je < s.opFlen
    · exact .inr (.inl ⟨je, hj, if_pos hj⟩)
    · exact .inl (if_neg hj)
  | notYet n o =>
    refine .inr (.inr ⟨_, _, rfl, ?_⟩)
    show s.issued ≤ max s.issued (min n s.opFlen) ∧
      (max s.issued (min n s.opFlen) ≤ s.issued ∨ max s.issued (min n s.opFlen) ≤ s.opFlen) ∧
      (s.issued = 0 → 0 < s.opFlen → (if max s.issued (min n s.opFlen) = s.opFlen then
        max 1 (min o (max s.issued (min n s.opFlen))) else min o (max s.issued (min n s.opFlen))) ≤
          max s.issued (min n s.opFlen)) ∧
      (0 < s.issued → (if max s.issued (min n s.opFlen) = s.opFlen then
        max 1 (min o (max s.issued (min n s.opFlen))) else min o (max s.issued (min n s.opFlen))) ≤
          max s.issued (min n s.opFlen))
    refine ⟨by omega, by omega, ?_, ?_⟩ <;> intros <;> split <;> omega
  | never n o =>
    refine .inr (.inr ⟨_, _, rfl, ?_⟩)
    show s.issued ≤ max s.issued (min (n + 1) s.opFlen) ∧
      (max s.issued (min (n + 1) s.opFlen) ≤ s.issued ∨ max s.issued (min (n + 1) s.opFlen) ≤ s.opFlen) ∧
      (s.issued = 0 → 0 < s.opFlen →
        max 1 (min o (max s.issued (min (n + 1) s.opFlen))) ≤ max s.issued (min (n + 1) s.opFlen)) ∧
      (0 < s.issued →
        max 1 (min o (max s.issued (min (n + 1) s.opFlen))) ≤ max s.issued (min (n + 1) s.opFlen))
    refine ⟨by omega, by omega, ?_, ?_⟩ <;> intros <;> omega

theorem frameStage_okay {s : State} {l : List FrameAnswer} (i : Instr) (off : Int)
    (h : s.frameAnswers = .okay :: l) :
    s.frameStage i off = .done (State.frameDone off { s with frameAnswers := l }) := by
  unfold State.frameStage
  rw [pollFrame_okay h]

theorem frameStage_error {s : State} {je : Nat} {l : List FrameAnswer} (i : Instr) (off : Int)
    (h : s.frameAnswers = .error je :: l) (hj : je < s.opFlen) :
    s.frameStage i off = .failed (State.framePartial off je { s with frameAnswers := l }) .busWriteErr := by
  unfold State.frameStage
  rw [pollFrame_error h]
  exact if_pos hj

end Sys2Proof.Machine
end

