-- ==== Sys2Proof/Laws/Commands.lean ====
section
/-! SUPPORT. What the pieces of the commands give: the checks as conditions on the registers, the values latched, the
offset, and frame memory after the frame writes. -/

namespace Sys2Proof.Machine

variable {s : State}

/-! ### Checks -/

theorem firstError_blockChecks (s : State) :
    firstError s.blockChecks =
      if 1024 < s.cfg.cpLen.toNat then some .cpGtBlock
      else if s.cfg.repeatCount.toInt < 1 then some .repeatLt1 else none := by
  unfold State.blockChecks
  rw [firstError_cons_decide, firstError_cons_decide]
  rfl

theorem firstError_symbolChecks (s : State) :
    firstError s.symbolChecks = if 13 < s.cfg.startSymbol.toNat then some .startSymRange else none := by
  unfold State.symbolChecks
  rw [firstError_cons_decide]
  rfl

theorem firstError_frameChecks (s : State) (off len : Int) :
    firstError (s.frameChecks off len) =
      if (10 * s.cfg.samplesPerMs.toNat : Int) < off + len then some .frameEndOver
      else if 2 ^ 32 < s.opFb + 8 * (10 * s.cfg.samplesPerMs.toNat) then some .fbAddrWrap else none := by
  have h : (s.opFlen : Int) = 10 * s.cfg.samplesPerMs.toNat := by
    show ((10 * s.cfg.samplesPerMs.toNat : Nat) : Int) = _
    push_cast
    rfl
  unfold State.frameChecks
  rw [firstError_cons_decide, firstError_cons_decide, h]
  rfl

/-! ### The block -/

theorem toNat_of_toInt_pos {b : BitVec 16} (h : 1 ≤ b.toInt) : (b.toNat : Int) = b.toInt := by
  rw [BitVec.toInt_eq_toNat_cond] at *
  split at h <;> omega

/-- BUILD_BLOCK's latches hold N_cp, R and the block's length (44_preamble_assembler.md R450). -/
theorem latchBlock_values (hc : s.cfg.cpLen.toNat ≤ 1024) (hr : 1 ≤ s.cfg.repeatCount.toInt) :
    s.latchBlock.results.asmCp.toNat = s.cfg.cpLen.toNat ∧
      (s.latchBlock.results.asmR.toNat : Int) = s.cfg.repeatCount.toInt ∧
      (s.latchBlock.results.asmLen.toNat : Int) = s.cfg.cpLen.toNat + s.cfg.repeatCount.toInt * 1024 := by
  have hn := toNat_of_toInt_pos hr
  refine ⟨by simp [State.latchBlock, State.opNcp], by simp [State.latchBlock, State.opR]; exact hn, ?_⟩
  have hlt : s.cfg.repeatCount.toInt < 2 ^ 15 := by
    have h := BitVec.toInt_lt (x := s.cfg.repeatCount)
    simpa using h
  have e : (s.cfg.cpLen.toNat : Int) + s.cfg.repeatCount.toInt * Config.gridSize =
      ((s.cfg.cpLen.toNat + s.cfg.repeatCount.toNat * 1024 : Nat) : Int) := by
    push_cast
    rw [hn]
  simp only [State.latchBlock, State.opAlen, State.opNcp, State.opR]
  rw [e, BitVec.ofInt_natCast, BitVec.toNat_ofNat, ← hn]
  push_cast
  omega

/-! ### The offset -/

theorem symbolSum_eq_sum (sd : Nat → Nat) (n : Nat) : symbolSum sd n = ∑ i ∈ Finset.range n, sd i := by
  induction n with
  | zero => rfl
  | succ n ih => rw [symbolSum, ih, Finset.sum_range_succ]

theorem symbolSum_le (s : State) (n : Nat) : symbolSum s.opSd n ≤ n * 65535 := by
  induction n with
  | zero => simp [symbolSum]
  | succ n ih =>
    have h := (nth 0#16 s.cfg.symDur n).isLt
    simp only [symbolSum, State.opSd] at *
    omega

/-- FRAME_OFFSET holds every offset COMPUTE_OFFSET can form, as a positive number (45_frame_builder.md R501). -/
theorem opOffset_lt (s : State) : s.opOffset < 2 ^ 31 := by
  have hs : s.opSs < 16 := s.cfg.startSymbol.isLt
  have h1 : symbolSum s.opSd s.opSs ≤ 15 * 65535 :=
    (symbolSum_le s s.opSs).trans (Nat.mul_le_mul_right _ (by omega))
  have hfi : s.opFi < 16 := s.cfg.frameIndex.isLt
  have hsi : s.opSi < 16 := s.cfg.slotIndex.isLt
  have h2 := Nat.mul_le_mul (Nat.le_of_lt_succ hfi) (Nat.le_of_lt s.cfg.samplesPerMs.isLt)
  have h3 := Nat.mul_le_mul (Nat.le_of_lt_succ hsi) (Nat.le_of_lt s.cfg.slotSamples.isLt)
  unfold State.opOffset
  change s.opFi * s.opSpm ≤ _ at h2
  change s.opSi * s.opSlots ≤ _ at h3
  omega

theorem toInt_opOffset (s : State) : (BitVec.ofNat 32 s.opOffset).toInt = s.opOffset := by
  have h := opOffset_lt s
  rw [BitVec.toInt_eq_toNat_cond, BitVec.toNat_ofNat, Nat.mod_eq_of_lt (by omega), if_pos (by omega)]

/-! ### The frame -/

theorem byteOf_frameWord (s : State) (off : Int) (j b : Nat) : byteOf (s.frameWord off j) b = s.frameByte off j b := by
  unfold byteOf State.frameWord State.frameByte State.asmWord
  simp only
  split
  · rename_i h
    congr 3
    rw [Int.toNat_of_nonneg (by omega)]
    rfl
  · rfl

/-- Frame memory after the frame writes (45_frame_builder.md R510). -/
theorem frameMem_written (s : State) (off : Int) {good : Nat} (hg : good ≤ s.opFlen) :
    s.FrameWritten off good (s.frameMem off good) := by
  refine ⟨?_, ?_, fun x hx => memRead_writeWords_outside hx⟩
  · intro hr j hj b hb
    unfold State.frameMem
    rw [memRead_writeWords_inside (by omega) hb, if_neg (by rw [hr]; simp; omega), byteOf_frameWord]
  · intro x hx
    have hx : s.opFb ≤ x ∧ x < s.opFb + 8 * s.opFlen := not_not.1 hx
    unfold State.frameMem
    rw [memRead_writeWords, if_pos hx]
    exact ⟨_, rfl⟩

/-- Spoiling the frame region changes no byte outside it (70_reset_and_hazards.md R703). -/
theorem memRead_spoiledRegion_outside (s : State) (d : Nat) {x : Nat} (hx : s.outsideFrame x) :
    memRead (s.spoiledRegion d) x = memRead s.mem x := by
  apply memRead_writeWords_outside
  intro h
  apply hx
  have hw : s.regionWords ≤ s.opFlen := Nat.min_le_left _ _
  refine ⟨h.1, ?_⟩
  change x < s.opFb + 8 * s.opFlen
  omega

end Sys2Proof.Machine
end

