-- ==== Sys2Proof/Laws/Host.lean ====
section
/-! SUPPORT. The host port: what a legal access, a dropped write and a write of each kind of target does. -/

namespace Sys2Proof.Machine

variable {s : State} {o : Nat} {data : Half}

theorem busy_eq_false_iff : s.busy = false ↔ s.sequencer = .idle := by
  unfold State.busy
  cases s.sequencer <;> simp

theorem busy_eq_true_iff : s.busy = true ↔ ∃ c st, s.sequencer = .busy c st := by
  unfold State.busy
  cases s.sequencer <;> simp

theorem busy_of_sequencer {c : Decoded} {st : Stage} (h : s.sequencer = .busy c st) : s.busy = true :=
  busy_eq_true_iff.2 ⟨c, st, h⟩

theorem writeAt_offset (ho : o < 2 ^ 20) : (writeAt o data).offset.toNat = o := by
  simp only [writeAt, BitVec.toNat_ofNat]
  exact Nat.mod_eq_of_lt ho

theorem readAt_offset (ho : o < 2 ^ 20) : (readAt o).offset.toNat = o := by
  simp only [readAt, BitVec.toNat_ofNat]
  exact Nat.mod_eq_of_lt ho

/-- A legal write has the effect of its target and is answered OKAY (20_memory.md R150), with data 0 (log 20). -/
theorem hostAccess_writeAt (hr : s.resetAsserted = false) (ho : o < 2 ^ 20) (h4 : o % 4 = 0) :
    hostAccess (writeAt o data) s =
      .next { s.hostWrite (targetAt o) data with response := some ⟨false, 0#32⟩ } := by
  have hw : (writeAt o data).wellFormed = true := by
    simp only [HostAccess.wellFormed, writeAt_offset ho, h4]
    rfl
  unfold hostAccess
  rw [hr, hw, writeAt_offset ho]
  rfl

/-- A legal read is answered from its target (20_memory.md R150). -/
theorem hostAccess_readAt (hr : s.resetAsserted = false) (ho : o < 2 ^ 20) (h4 : o % 4 = 0) :
    hostAccess (readAt o) s = .next (s.hostRead (targetAt o)) := by
  have hw : (readAt o).wellFormed = true := by
    simp only [HostAccess.wellFormed, readAt_offset ho, h4]
    rfl
  unfold hostAccess
  rw [hr, hw, readAt_offset ho]
  rfl

/-- An access of an illegal width or alignment gets the bus error (20_memory.md R151), for a write with data 0 as well
(log 20). -/
theorem hostAccess_illegal {a : HostAccess} (hr : s.resetAsserted = false) (hw : a.wellFormed = false) :
    hostAccess a s = .next { s with response := some ⟨true, 0#32⟩ } := by
  unfold hostAccess
  rw [hr, hw]
  rfl

/-- A host access is refused only while the hardware reset is asserted, and else answers a next state. -/
theorem hostAccess_next (a : HostAccess) (hr : s.resetAsserted = false) : ∃ t, hostAccess a s = .next t := by
  unfold hostAccess
  rw [hr]
  cases a.wellFormed
  · exact ⟨_, rfl⟩
  · cases a.op <;> exact ⟨_, rfl⟩

/-- While BUSY every target but CTRL and STATUS drops a write (40_command_control.md R253). -/
theorem hostWrite_busy {t : Target} (hb : s.busy = true) (hc : t ≠ .register .ctrl) (hs : t ≠ .register .status) :
    s.hostWrite t data = s.dropWrite := by
  unfold State.hostWrite
  split
  · exact absurd rfl hc
  · exact absurd rfl hs
  · rw [hb]; rfl
  · rw [hb]; rfl
  all_goals rw [hb]; rfl

/-- While not BUSY a register other than CTRL and STATUS takes a write. -/
theorem hostWrite_register {r : Register} (hb : s.busy = false) (hc : r ≠ .ctrl) (hs : r ≠ .status) :
    s.hostWrite (.register r) data = s.writeRegister r data := by
  unfold State.hostWrite
  cases r <;> first | exact absurd rfl hc | exact absurd rfl hs | (simp only [hb]; rfl)

theorem targetAt_low (h : o < 0x200) : targetAt o = registerAt o := if_pos h

theorem registerAt_rootTable (h : 0x100 ≤ o) (h' : o < 0x1A0) :
    registerAt o = .register (.rootTable ((o - 0x100) / 4)) := if_pos ⟨h, h'⟩

theorem registerAt_symDur (h : 0x1A0 ≤ o) (h' : o < 0x1D8) :
    registerAt o = .register (.symDur ((o - 0x1A0) / 4)) := by
  unfold registerAt
  rw [if_neg (by omega), if_pos ⟨h, h'⟩]

theorem targetAt_grid {j h : Nat} (hj : j < 1024) (hh : h < 2) :
    targetAt (0x10000 + 8 * j + 4 * h) = .grid j h := by
  have e1 : (0x10000 + 8 * j + 4 * h - 0x10000) / 8 = j := by omega
  have e2 : (0x10000 + 8 * j + 4 * h) / 4 % 2 = h := by omega
  unfold targetAt
  rw [if_neg (by omega), if_neg (by omega), if_pos (by omega), e1, e2]

theorem targetAt_td {j h : Nat} (hj : j < 1024) (hh : h < 2) :
    targetAt (0x12000 + 8 * j + 4 * h) = .td j h := by
  have e1 : (0x12000 + 8 * j + 4 * h - 0x12000) / 8 = j := by omega
  have e2 : (0x12000 + 8 * j + 4 * h) / 4 % 2 = h := by omega
  unfold targetAt
  rw [if_neg (by omega), if_neg (by omega), if_neg (by omega), if_pos (by omega), e1, e2]

theorem targetAt_pset {i k h : Nat} (hi : i < 64) (hk : k < 256) (hh : h < 2) :
    targetAt (0x20000 + 8 * (256 * i + k) + 4 * h) = .pset i k h := by
  have e1 : (0x20000 + 8 * (256 * i + k) + 4 * h - 0x20000) / 8 / 256 = i := by omega
  have e2 : (0x20000 + 8 * (256 * i + k) + 4 * h - 0x20000) / 8 % 256 = k := by omega
  have e3 : (0x20000 + 8 * (256 * i + k) + 4 * h) / 4 % 2 = h := by omega
  unfold targetAt
  rw [if_neg (by omega), if_neg (by omega), if_neg (by omega), if_neg (by omega), if_neg (by omega),
    if_pos (by omega), e1, e2, e3]

theorem targetAt_asm {i h : Nat} (hi : i < 65536) (hh : h < 2) :
    targetAt (0x40000 + 8 * i + 4 * h) = .asm i h := by
  have e1 : (0x40000 + 8 * i + 4 * h - 0x40000) / 8 = i := by omega
  have e2 : (0x40000 + 8 * i + 4 * h) / 4 % 2 = h := by omega
  unfold targetAt
  rw [if_neg (by omega), if_neg (by omega), if_neg (by omega), if_neg (by omega), if_neg (by omega),
    if_neg (by omega), if_pos (by omega), e1, e2]

/-- Half h of a sample word is its bits [32h+31 : 32h] (20_memory.md R155). -/
theorem halfOf_eq_extract {h : Nat} (hh : h < 2) (w : Sample) : halfOf h w = w.extractLsb' (32 * h) 32 := by
  obtain rfl | rfl : h = 0 ∨ h = 1 := by omega
  · rfl
  · rfl

end Sys2Proof.Machine
end

