-- ==== Sys2Proof/Laws/Look.lean ====
section
/-! SUPPORT. A look at an external agent: every state has one, and what the transform stage and the frame stage do is
read off its answer. -/

namespace Sys2Proof.Machine

/-! ### The transform engine -/

theorem exists_engineLook (s : State) : ∃ a l d, s.EngineLook a l d := by
  rcases h : s.engine with _ | ⟨a, l⟩
  · exact ⟨_, _, _, .inr (.inr ⟨h, rfl, rfl, rfl⟩)⟩
  · by_cases ha : a = .never
    · subst ha
      exact ⟨.never, _, _, .inr (.inl ⟨rfl, by rw [h]; rfl, rfl, rfl⟩)⟩
    · exact ⟨a, l, _, .inl ⟨ha, h, rfl⟩⟩

variable {s : State} {d : Nat}

theorem pollEngine_of_look {a : EngineAnswer} {l : List EngineAnswer} (h : s.EngineLook a l d) :
    s.pollEngine = (a, { s with engine := l, draws := d }) := by
  rcases h with ⟨ha, he, rfl⟩ | ⟨rfl, he, rfl, rfl⟩ | ⟨he, rfl, rfl, rfl⟩
  · rw [pollEngine_scripted he ha]
  · rcases hs : s.engine with _ | ⟨b, m⟩
    · rw [hs] at he; cases he
    · rw [hs] at he
      cases he
      rw [pollEngine_never hs, ← hs]
  · unfold State.pollEngine
    rw [he]

theorem transformAnswer_of_success {l : List EngineAnswer} (i : Instr) (h : s.EngineLook .success l d) :
    s.transformAnswer i = .done (State.storeBlock (State.release { s with engine := l, draws := d })) := by
  unfold State.transformAnswer
  rw [pollEngine_of_look h]

theorem transformAnswer_of_fail {l : List EngineAnswer} (i : Instr) (h : s.EngineLook .fail l d) :
    s.transformAnswer i = .failed (State.spoilBlock (State.release { s with engine := l, draws := d })) .engineFail := by
  unfold State.transformAnswer
  rw [pollEngine_of_look h]

theorem transformAnswer_of_notYet {l : List EngineAnswer} (i : Instr) (h : s.EngineLook .notYet l d) :
    s.transformAnswer i = .waiting (State.waitAt i .engine { s with engine := l, draws := d }) := by
  unfold State.transformAnswer
  rw [pollEngine_of_look h]

theorem transformAnswer_of_never {l : List EngineAnswer} (i : Instr) (h : s.EngineLook .never l d) :
    s.transformAnswer i = .waiting (State.waitAt i .engine { s with engine := l, draws := d }) := by
  unfold State.transformAnswer
  rw [pollEngine_of_look h]

/-! ### Frame memory -/

theorem exists_frameLook (s : State) : ∃ a l d, s.FrameLook a l d := by
  rcases h : s.frameAnswers with _ | ⟨a, l⟩
  · exact ⟨_, _, _, .inr (.inr ⟨h, rfl, rfl, rfl⟩)⟩
  · cases ha : frameStuck a with
    | false => exact ⟨a, l, _, .inl ⟨ha, h, rfl⟩⟩
    | true => exact ⟨a, _, _, .inr (.inl ⟨ha, by rw [h]; rfl, rfl, rfl⟩)⟩

theorem pollFrame_of_look {a : FrameAnswer} {l : List FrameAnswer} (h : s.FrameLook a l d) :
    s.pollFrame = (a, { s with frameAnswers := l, draws := d }) := by
  rcases h with ⟨ha, he, rfl⟩ | ⟨ha, he, rfl, rfl⟩ | ⟨he, rfl, rfl, rfl⟩
  · unfold State.pollFrame
    rw [he]
    cases a <;> first | rfl | cases ha
  · rcases hs : s.frameAnswers with _ | ⟨b, m⟩
    · rw [hs] at he; cases he
    · rw [hs] at he
      cases he
      cases a with
      | never n o => rw [pollFrame_never hs, ← hs]
      | _ => cases ha
  · unfold State.pollFrame
    rw [he]

theorem frameStage_of_okay {l : List FrameAnswer} (i : Instr) (off : Int) (h : s.FrameLook .okay l d) :
    s.frameStage i off = .done (State.frameDone off { s with frameAnswers := l, draws := d }) := by
  unfold State.frameStage
  rw [pollFrame_of_look h]

theorem frameStage_of_error {l : List FrameAnswer} {je : Nat} (i : Instr) (off : Int)
    (h : s.FrameLook (.error je) l d) (hj : je < s.opFlen) :
    s.frameStage i off = .failed (State.framePartial off je { s with frameAnswers := l, draws := d }) .busWriteErr := by
  unfold State.frameStage
  rw [pollFrame_of_look h]
  exact if_pos hj

theorem frameStage_of_error_past {l : List FrameAnswer} {je : Nat} (i : Instr) (off : Int)
    (h : s.FrameLook (.error je) l d) (hj : ¬je < s.opFlen) :
    s.frameStage i off = .done (State.frameDone off { s with frameAnswers := l, draws := d }) := by
  unfold State.frameStage
  rw [pollFrame_of_look h]
  exact if_neg hj

/-- A wait leaves at least the writes issued before, no more than the frame has, and one unanswered once all are
issued. -/
theorem frameStage_of_wait {a : FrameAnswer} {l : List FrameAnswer} (i : Instr) (off : Int)
    (h : s.FrameLook a l d) (ha : (∃ n o, a = .notYet n o) ∨ ∃ n o, a = .never n o) :
    ∃ n o, s.frameStage i off = .waiting (State.frameWait i n o { s with frameAnswers := l, draws := d }) ∧
      s.issued ≤ n ∧ (n ≤ s.issued ∨ n ≤ s.opFlen) ∧ (n = s.opFlen → 1 ≤ o) ∧ (0 < n → o ≤ n) := by
  unfold State.frameStage
  rw [pollFrame_of_look h]
  rcases ha with ⟨n, o, rfl⟩ | ⟨n, o, rfl⟩
  · refine ⟨_, _, rfl, ?_⟩
    show s.issued ≤ max s.issued (min n s.opFlen) ∧
      (max s.issued (min n s.opFlen) ≤ s.issued ∨ max s.issued (min n s.opFlen) ≤ s.opFlen) ∧
      (max s.issued (min n s.opFlen) = s.opFlen → 1 ≤ if max s.issued (min n s.opFlen) = s.opFlen then
        max 1 (min o (max s.issued (min n s.opFlen))) else min o (max s.issued (min n s.opFlen))) ∧
      (0 < max s.issued (min n s.opFlen) → (if max s.issued (min n s.opFlen) = s.opFlen then
        max 1 (min o (max s.issued (min n s.opFlen))) else min o (max s.issued (min n s.opFlen))) ≤
          max s.issued (min n s.opFlen))
    refine ⟨by omega, by omega, ?_, ?_⟩ <;> intros <;> split <;> omega
  · refine ⟨_, _, rfl, ?_⟩
    show s.issued ≤ max s.issued (min (n + 1) s.opFlen) ∧
      (max s.issued (min (n + 1) s.opFlen) ≤ s.issued ∨ max s.issued (min (n + 1) s.opFlen) ≤ s.opFlen) ∧
      (max s.issued (min (n + 1) s.opFlen) = s.opFlen →
        1 ≤ max 1 (min o (max s.issued (min (n + 1) s.opFlen)))) ∧
      (0 < max s.issued (min (n + 1) s.opFlen) →
        max 1 (min o (max s.issued (min (n + 1) s.opFlen))) ≤ max s.issued (min (n + 1) s.opFlen))
    refine ⟨by omega, by omega, ?_, ?_⟩ <;> intros <;> omega

end Sys2Proof.Machine
end

