-- ==== Sys2Proof/Laws/PerInstr.lean ====
section
/-! SUPPORT. A fact about every command, one lemma per constructor: its word decodes to it (30_encoding.md R205). -/

namespace Sys2Proof.Laws.RoundTrip

/-- The encoded command is a legal word and decodes to the command. -/
def Statement (i : Instr) : Prop :=
  decode (encode i) = .command i ∧ wordWellFormed (encode i) = i.wellFormed

theorem nop : Statement .nop := ⟨by decide, by decide⟩
theorem rootSample : Statement .rootSample := ⟨by decide, by decide⟩
theorem csSample : Statement .csSample := ⟨by decide, by decide⟩
theorem dftCoef : Statement .dftCoef := ⟨by decide, by decide⟩
theorem genSet : Statement .genSet := ⟨by decide, by decide⟩
theorem placeGrid : Statement .placeGrid := ⟨by decide, by decide⟩
theorem reorder : Statement .reorder := ⟨by decide, by decide⟩
theorem transform : Statement .transform := ⟨by decide, by decide⟩
theorem buildBlock : Statement .buildBlock := ⟨by decide, by decide⟩
theorem computeOffset : Statement .computeOffset := ⟨by decide, by decide⟩
theorem placeFrame : Statement .placeFrame := ⟨by decide, by decide⟩
theorem generate : Statement .generate := ⟨by decide, by decide⟩

end Sys2Proof.Laws.RoundTrip
end

