-- ==== Sys2Proof/Laws/Step.lean ====
section
/-! SUPPORT. The step: the event at the head of the list, or the sequencer's turn. -/

namespace Sys2Proof.Machine

variable {s : State}

theorem step_no_event (h : s.events = []) : step s = sequencerTurn s := by
  unfold step advance
  rw [h]

theorem step_event {e : Event} {rest : List Event} (h : s.events = e :: rest) :
    step s = handle e { s with events := rest } := by
  unfold step advance
  rw [h]

theorem sequencerTurn_command {i : Instr} {st : Stage} (hr : s.resetAsserted = false)
    (h : s.sequencer = .busy (.command i) st) : sequencerTurn s = exec i s := by
  unfold sequencerTurn
  rw [hr, h]
  rfl

theorem sequencerTurn_illegal {c : IllegalCause} {st : Stage} (hr : s.resetAsserted = false)
    (h : s.sequencer = .busy (.illegal c) st) : sequencerTurn s = execIllegal c s := by
  unfold sequencerTurn
  rw [hr, h]
  rfl

theorem sequencerTurn_idle (h : s.sequencer = .idle) : sequencerTurn s = .next s := by
  unfold sequencerTurn
  rw [h]
  cases s.resetAsserted <;> rfl

theorem sequencerTurn_inReset (h : s.resetAsserted = true) : sequencerTurn s = .next s := by
  unfold sequencerTurn
  rw [h]
  rfl

/-- The sequencer's turn is nothing, an illegal word's completion, or the running command's meaning. -/
theorem sequencerTurn_cases (s : State) :
    sequencerTurn s = .next s ∨
    (∃ c st, s.resetAsserted = false ∧ s.sequencer = .busy (.illegal c) st ∧
      sequencerTurn s = .next (s.complete (illegalErr c))) ∨
    ∃ i st, s.resetAsserted = false ∧ s.sequencer = .busy (.command i) st ∧ sequencerTurn s = exec i s := by
  cases hr : s.resetAsserted with
  | true => exact .inl (sequencerTurn_inReset hr)
  | false =>
    match hq : s.sequencer with
    | .idle => exact .inl (sequencerTurn_idle hq)
    | .busy (.illegal c) st => exact .inr (.inl ⟨c, st, rfl, rfl, sequencerTurn_illegal hr hq⟩)
    | .busy (.command i) st => exact .inr (.inr ⟨i, st, rfl, rfl, sequencerTurn_command hr hq⟩)

/-- A run is its first step and then the rest of the run. -/
theorem run_next {k : Nat} {s t : core.State} (h : core.step s = .next t) :
    Host.Core.run core (k + 1) s = Host.Core.run core k t := by
  rw [Host.Core.run, h]

end Sys2Proof.Machine
end

