-- ==== Sys2Proof/Tests/Slice0.lean ====
section
/-! SUPPORT. Tests: command words written out from the encoding, ill-formed words and accesses refused, at most two
vectors of 95_test_vectors.md per command, and for each statement with hypotheses a state that meets them. -/

set_option Elab.async false

namespace Sys2Proof.Machine.Tests

/-! ### Decoding: RSVD in bits [31:8], OPC in bits [7:0] (30_encoding.md R200, R205) -/

theorem test_decode_nop : decode (0b000000000000000000000000#24 ++ 0b00000000#8) = .command .nop := by decide
theorem test_decode_rootSample : decode (0#24 ++ 0b00000001#8) = .command .rootSample := by decide
theorem test_decode_csSample : decode (0#24 ++ 0b00000010#8) = .command .csSample := by decide
theorem test_decode_dftCoef : decode (0#24 ++ 0b00000011#8) = .command .dftCoef := by decide
theorem test_decode_genSet : decode (0#24 ++ 0b00000100#8) = .command .genSet := by decide
theorem test_decode_placeGrid : decode (0#24 ++ 0b00010000#8) = .command .placeGrid := by decide
theorem test_decode_reorder : decode (0#24 ++ 0b00010001#8) = .command .reorder := by decide
theorem test_decode_transform : decode (0#24 ++ 0b00100000#8) = .command .transform := by decide
theorem test_decode_buildBlock : decode (0#24 ++ 0b00110000#8) = .command .buildBlock := by decide
theorem test_decode_computeOffset : decode (0#24 ++ 0b01000000#8) = .command .computeOffset := by decide
theorem test_decode_placeFrame : decode (0#24 ++ 0b01000001#8) = .command .placeFrame := by decide
theorem test_decode_generate : decode (0#24 ++ 0b01010000#8) = .command .generate := by decide
/-- The reserved bits are tested before an unknown opcode (30_encoding.md R206). -/
theorem test_decode_rsvd_first : decode 0x00000105#32 = .illegal .rsvdBits := by decide
theorem test_decodeTableWord : decodeTableWord 32 0x50 = some .generate ∧ decodeTableWord 32 0x51 = none := by decide

/-! ### Well-formedness: one ill-formed term for each check -/

theorem test_wellFormed_rsvd : rsvdClear 0x00000100#32 = false ∧ wordWellFormed 0x00000100#32 = false := by decide
theorem test_wellFormed_opcode : opcKnown 0x00000005#32 = false ∧ wordWellFormed 0x00000005#32 = false := by decide
theorem test_wellFormed_width : HostAccess.wellFormed ⟨.w16, 0x018#20, .read⟩ = false := by decide
theorem test_wellFormed_alignment : HostAccess.wellFormed ⟨.w32, 0x019#20, .read⟩ = false := by decide

/-! ### States for the tests -/

/-- A view of the next state, if there is one. -/
def next {α : Type} (f : State → α) : Host.Outcome State Fault Refusal → Option α
  | .next t => some (f t)
  | .fault _ => none
  | .refused _ => none

/-- STATUS after a command. -/
def statusAfter (i : Instr) (s : State) : Option Half := next State.statusWord (exec i s)

/-- Q_RE, Q_IM and Q_PHASE after a command, as a host reads them. -/
def queryAfter (i : Instr) (s : State) : Option (Half × Half × Half) :=
  next (fun t => (t.readRegister .qRe, t.readRegister .qIm, t.readRegister .qPhase)) (exec i s)

/-- The accepted command, from the reset state with the given registers. -/
def issued (i : Instr) (cfg : ConfigRegs) : State := State.accept (encode i) { State.reset with cfg := cfg }

/-- Query operands (10_state.md R120 to R122). -/
def query (ncs qU qV : BitVec 8) (qN : Half) : ConfigRegs :=
  { ConfigRegs.reset with ncs := ncs, qU := qU, qV := qV, qN := qN }

/-- The standard configuration (00_scope.md R19), ROOT_TABLE[r] = r + 1 (95_test_vectors.md). -/
def standard : ConfigRegs :=
  { ConfigRegs.reset with
    ncs := 69#8, rbCount := 48#16, cpLen := 468#16, repeatCount := 12#16, frameIndex := 9#4, slotIndex := 1#4
    startSymbol := 2#4, samplesPerMs := 30720#20, slotSamples := 15360#20
    rootTable := fill 40 fun r => BitVec.ofNat 8 (r + 1)
    symDur := fill 14 fun i => if i = 0 then 1112#16 else if i = 1 then 1096#16 else 0#16 }

/-- An accepted command with both agents' answers scripted. -/
def served (i : Instr) (cfg : ConfigRegs) (e : EngineAnswer) (f : FrameAnswer) : State :=
  { issued i cfg with engine := [e], frameAnswers := [f] }

/-- With a valid block of 12756 words, as after BUILD_BLOCK (95_test_vectors.md 2.13). -/
def withBlock (off : Half) (s : State) : State :=
  { s with
    results := { Results.reset with frameOffset := off, asmLen := 12756#26, asmCp := 468#16, asmR := 12#16 }
    status := { s.status with tdValid := true, asmValid := true } }

/-- TRANSFORM waiting for an engine that never answers (95_test_vectors.md P6). -/
def hung : State :=
  { State.transformBegin (issued .transform standard) with
    sequencer := .busy (.command .transform) .engine, engine := [.never] }

/-- PLACE_FRAME waiting for frame memory, all 307200 writes issued and one unanswered. -/
def stalled : State :=
  { withBlock 294048#32 (issued .placeFrame standard) with
    sequencer := .busy (.command .placeFrame) .frame, issued := 307200, outstanding := 1
    frameAnswers := [.never 307200 1] }

/-! ### Vectors of 95_test_vectors.md, by section -/

theorem test_rom_entries : rom 15 = 0xBF2094B43F475F9D#64 ∧ rom 138 = 0x3D3916673F7FBD0F#64 := by decide +kernel

-- 2.15 and P1 line 29
theorem test_nop : statusAfter .nop (issued .nop ConfigRegs.reset) = some 0x00000002#32 := by decide +kernel
theorem test_illegal : next State.statusWord (step (State.reset.withFetchWord 32 0x100)) = some 0x00310402#32 := by
  decide +kernel

-- 2.4
theorem test_rootSample : queryAfter .rootSample (issued .rootSample (query 0 25 0 10)) =
    some (0x3F475F9D#32, 0x3F2094B4#32, 0x17C#32) := by decide +kernel
theorem test_rootSample_negative : queryAfter .rootSample (issued .rootSample (query 0 1 0 0x80000000)) =
    some (0x3EC544FF#32, 0x3F6C3C46#32, 0x171#32) := by decide +kernel

-- 2.5
theorem test_csSample : queryAfter .csSample (issued .csSample (query 69 2 1 0xFFFFFFFF)) =
    some (0x3D0AD619#32, 0x3F7FDA57#32, 0x169#32) := by decide +kernel
theorem test_csSample_range : statusAfter .csSample (issued .csSample (query 16 1 8 0)) = some 0x02050102#32 := by
  decide +kernel

-- 2.6
theorem test_dftCoef : queryAfter .dftCoef (issued .dftCoef (query 69 1 0 0xFFFFFFFF)) =
    some (0x41062363#32, 0xC104A17E#32, 0#32) := by decide +kernel
theorem test_dftCoef_zero_root : queryAfter .dftCoef (issued .dftCoef (query 69 0 0 1)) =
    some (0xB6E80000#32, 0x367F4000#32, 0#32) := by decide +kernel
theorem test_genSet : next (fun t => (t.statusWord, psetWord t.pset 5 138)) (exec .genSet (issued .genSet standard)) =
    some (0x0400000A#32, 0x403163AEC13759AA#64) := by decide +kernel
theorem test_genSet_range : statusAfter .genSet (issued .genSet ConfigRegs.reset) = some 0x04020102#32 := by
  decide +kernel

-- 2.8
theorem test_placeGrid : next (fun t => (t.statusWord, word t.grid 223, word t.grid 224, word t.grid 362))
    (exec .placeGrid (issued .placeGrid { standard with preambleIndex := 5 })) =
    some (0x10000002#32, 0#64, 0xC107A0E1C1031B47#64, 0x403163AEC13759AA#64) := by decide +kernel
theorem test_placeGrid_over : statusAfter .placeGrid (issued .placeGrid { standard with freqOffset := 662 }) =
    some 0x10110202#32 := by decide +kernel

-- 2.9
theorem test_reorder : next (fun t => (t.statusWord, word t.grid 1023)) (exec .reorder
    { issued .reorder standard with grid := fill 1024 fun j => if j = 511 then 0x7FC00000#64 else 0#64 }) =
    some (0x11000002#32, 0x7FC00000#64) := by decide +kernel

-- 2.10
theorem test_transform : statusAfter .transform (withBlock 0 (served .transform standard .success .okay)) =
    some 0x20000012#32 := by decide +kernel
theorem test_transform_fail : statusAfter .transform (served .transform standard .fail .okay) =
    some 0x20200302#32 := by decide +kernel

-- 2.11
theorem test_buildBlock : next (fun t => (t.statusWord, t.readRegister .asmLen)) (exec .buildBlock (withBlock 0
    (issued .buildBlock { standard with cpLen := 1024, repeatCount := 32767 }))) =
    some (0x30000032#32, 0x2000000#32) := by decide +kernel
theorem test_buildBlock_order : statusAfter .buildBlock
    (issued .buildBlock { standard with cpLen := 1025, repeatCount := 0 }) = some 0x30060102#32 := by decide +kernel

-- 2.12
theorem test_computeOffset : next (fun t => (t.statusWord, t.readRegister .frameOffset)) (exec .computeOffset
    (issued .computeOffset standard)) = some (0x40000002#32, 0x00047CA0#32) := by decide +kernel
theorem test_computeOffset_range : statusAfter .computeOffset
    (issued .computeOffset { standard with startSymbol := 14 }) = some 0x40090102#32 := by decide +kernel

-- 2.13: the byte layout, on a frame of 10 words with a block of one; and the lowest failing check
theorem test_placeFrame : next (fun t => (t.status.frameValid, (List.range 10).map fun b => memRead t.mem (23 + b)))
    (exec .placeFrame { served .placeFrame { standard with samplesPerMs := 1 } .success .okay with
      td := fill 1024 fun _ => 0xC104A17E41062362#64
      results := { Results.reset with frameOffset := 3, asmLen := 1, asmR := 1 }
      status := { Status.reset with asmValid := true } }) =
    some (true, [some 0#8, some 0x62#8, some 0x23#8, some 0x06#8, some 0x41#8, some 0x7E#8, some 0xA1#8,
      some 0x04#8, some 0xC1#8, some 0#8]) := by decide +kernel
theorem test_placeFrame_wrap : statusAfter .placeFrame
    (withBlock 294048 (issued .placeFrame { standard with fbBase := 0x1FFB5001 })) = some 0x41140232#32 := by decide +kernel

-- 2.14
theorem test_generate_over : statusAfter .generate (issued .generate { standard with repeatCount := 13 }) =
    some 0x50130202#32 := by decide +kernel
theorem test_generate_fail : next (fun t => (t.statusWord, word t.grid 735, word t.grid 736)) (exec .generate
    (served .generate standard .fail .okay)) = some (0x50200302#32, 0#64, 0xC104A17E41062362#64) := by decide +kernel

-- 10_state.md R112, R117 to R119, R123 to R125, R55, R56: the offsets of the result registers, CTRL and CMD
theorem test_result_offsets : ([0x050, 0x064, 0x068, 0x06C, 0x080, 0x084, 0x088].map fun o =>
    (State.hostRead (targetAt o) { State.reset with results := ⟨1#32, 2#26, 3#16, 4#16, 5#32, 6#32, 7#8, true⟩ }).response)
      = [okay 1#32, okay 2#32, okay 3#32, okay 4#32, okay 5#32, okay 6#32, okay 0x107#32] := by decide +kernel
theorem test_ctrl_cmd_offsets : ([0x010, 0x014].map fun o =>
    (State.hostRead (targetAt o) { State.reset with irqEn := true, cmd := 0x50#32 }).response)
      = [okay 0x2#32, okay 0x50#32] := by decide +kernel

/-! ### States that meet the hypotheses of the statements -/

theorem of_next {α : Type} {f : State → α} {o : Host.Outcome State Fault Refusal} {v : α} (h : next f o = some v) :
    ∃ t, o = .next t ∧ f t = v := by
  cases o with
  | next t => exact ⟨t, rfl, Option.some.inj h⟩
  | fault _ => cases h
  | refused _ => cases h

/-- A GENERATE that waits for the engine, with `a` as its next answer. -/
def generating (a : EngineAnswer) : State :=
  { State.transformBegin (issued .generate standard) with
    sequencer := .busy (.command .generate) .engine, engine := [a] }

/-- A GENERATE that waits for frame memory, with `f` as its next answer. -/
def framing (f : FrameAnswer) : State :=
  { withBlock 294048#32 (issued .generate standard) with
    sequencer := .busy (.command .generate) .frame, issued := 307200, outstanding := 1, frameAnswers := [f] }

/-- The reset state with one event to come. -/
def facing (e : Event) : State := { State.reset with events := [e] }

theorem hung_inv : hung.Inv where
  memory := rfl
  running := by intro c st h; cases h; exact ⟨by decide, by decide, rfl⟩
  stage := ⟨rfl, rfl, rfl, rfl, rfl, .inl rfl⟩
  block := by intro h; cases h
  pset := by intro h; cases h
  record := ⟨.none, rfl, rfl⟩
  frameFlag := fun _ => rfl
  inReset := by intro h; cases h

theorem generating_inv (a : EngineAnswer) : (generating a).Inv where
  memory := rfl
  running := by
    intro c st h
    cases h
    exact ⟨by change Decoded.command .generate = decode (encode .generate); decide,
      by change (encode .generate).extractLsb' 0 8 = (encode .generate).extractLsb' 0 8; rfl, rfl⟩
  stage := ⟨rfl, rfl, rfl, rfl, rfl, .inr ⟨rfl, by
    change firstError (issued .generate standard).generateChecks = none; decide +kernel⟩⟩
  block := by intro h; cases h
  pset := by intro h; cases h
  record := ⟨.none, rfl, rfl⟩
  frameFlag := fun _ => rfl
  inReset := by intro h; cases h

theorem framing_inv (f : FrameAnswer) : (framing f).Inv where
  memory := rfl
  running := by
    intro c st h
    cases h
    exact ⟨by change Decoded.command .generate = decode (encode .generate); decide,
      by change (encode .generate).extractLsb' 0 8 = (encode .generate).extractLsb' 0 8; rfl, rfl⟩
  stage := ⟨rfl, rfl, Nat.le_add_left 1 307199, Nat.le_refl 307200, .inr ⟨rfl, by
    change firstError (issued .generate standard).generateChecks = none; decide +kernel⟩⟩
  block := fun _ => ⟨rfl, by change (468#16).toNat ≤ 1024; decide, by change 1 ≤ (12#16).toNat; decide,
    by change (12#16).toNat ≤ 32767; decide,
    by change (12756#26).toNat = (468#16).toNat + (12#16).toNat * 1024; decide⟩
  pset := by intro h; cases h
  record := ⟨.none, rfl, rfl⟩
  frameFlag := fun _ => rfl
  inReset := by intro h; cases h

theorem witness_DecodeFollowsTheOpcodeMap :
    (0x00000100#32).extractLsb' 8 24 ≠ 0#24 ∧ (0x80000000#32).extractLsb' 8 24 ≠ 0#24 ∧
      (0x000000FF#32).extractLsb' 8 24 = 0#24 ∧ (0x00000050#32).extractLsb' 8 24 = 0#24 := by decide

theorem witness_DecodeEncodeAgree :
    decode 0x00000050#32 = .command .generate ∧ (0x00000050#32 = encode .generate) ∧
      wordWellFormed 0x00000050#32 = true := by decide

theorem witness_ResetsGiveTheResetState :
    stalled.resetAsserted = false ∧ (0x00000001#32).getLsbD 0 = true ∧ (0xFFFFFFFF#32).getLsbD 0 = true := by
  decide +kernel

theorem witness_StepKeepsTheInvariant :
    (hung.Inv ∧ ∃ t, step hung = .next t) ∧ (generating .fail).Inv ∧ (∃ t, step (generating .fail) = .next t) ∧
      (framing (.notYet 0 0)).Inv ∧ ∃ t, step (framing (.notYet 0 0)) = .next t :=
  ⟨⟨hung_inv, _, rfl⟩, generating_inv _, ⟨_, rfl⟩, framing_inv _, _, rfl⟩

theorem witness_StepRunsTheDecodedCommand_running :
    hung.resetAsserted = false ∧ hung.sequencer = .busy (.command .transform) .engine ∧ hung.Turn hung ∧
      State.Turn { hung with events := [.sequencer] } hung :=
  ⟨rfl, rfl, .inl ⟨rfl, rfl⟩, .inr ⟨[], rfl, rfl⟩⟩

theorem witness_StepRunsTheDecodedCommand_waiting :
    State.reset.Turn State.reset ∧ (facing .sequencer).Turn State.reset ∧ State.reset.busy = false ∧
      State.Turn { hung with resetAsserted := true } { hung with resetAsserted := true } :=
  ⟨.inl ⟨rfl, rfl⟩, .inr ⟨[], rfl, rfl⟩, by decide +kernel, .inl ⟨rfl, rfl⟩⟩

theorem witness_StepRunsTheDecodedCommand_outside (a : HostAccess) (addr : Addr) (b : Byte) (r : Bool) :
    (facing (.host a)).events = .host a :: [] ∧ (facing (.agentWrite addr b)).events = .agentWrite addr b :: [] ∧
      (facing (.agentRead addr)).events = .agentRead addr :: [] ∧
      (facing (.resetLine r)).events = .resetLine r :: [] := ⟨rfl, rfl, rfl, rfl⟩

theorem witness_StepRunsTheDecodedCommand_issued :
    decode 0x00000050#32 = .command .generate ∧ State.reset.resetAsserted = false ∧ State.reset.busy = false ∧
      (facing (.host (writeAt 0x014 0x50#32))).events = [.host (writeAt 0x014 0x50#32)] ∧
      State.reset.events = [] := by decide +kernel

theorem witness_StepRunsTheDecodedCommand_illegal :
    (State.reset.accept 0x00000105#32).resetAsserted = false ∧
      (State.reset.accept 0x00000105#32).Turn (State.reset.accept 0x00000105#32) ∧
      (State.reset.accept 0x00000105#32).sequencer = .busy (.illegal .rsvdBits) .start ∧
      (State.reset.accept 0x000000FF#32).sequencer = .busy (.illegal .opcUnknown) .start :=
  ⟨rfl, .inl ⟨rfl, rfl⟩, rfl, rfl⟩

/-- Each way a step can end (a next state, the refusal, the fault) happens. -/
theorem witness_StepStopsOnlyForTheOutside :
    (∃ t, step State.reset = .next t) ∧
      step { facing (.host (readAt 0)) with resetAsserted := true } = .refused .accessDuringReset ∧
      step (facing (.agentRead 0#32)) = .fault .unwrittenFrameByte := ⟨⟨_, rfl⟩, rfl, rfl⟩

theorem witness_IllegalAccessGetsTheBusError :
    State.reset.resetAsserted = false ∧ (HostAccess.mk .w8 0#20 .read).width ≠ .w32 ∧
      (HostAccess.mk .w16 0#20 (.write 1#32)).width ≠ .w32 ∧ (HostAccess.mk .w32 0xFFFFF#20 .read).offset.toNat % 4 ≠ 0 := by
  decide +kernel

theorem witness_ReservedAndReadOnlyOffsets :
    State.reset.resetAsserted = false ∧ State.reset.busy = false ∧
      (∀ o ∈ [0x00C, 0x01C, 0x07C, 0x08C, 0x0FC, 0x1D8, 0x1FC, 0x200, 0x0FFFC, 0x14000, 0x1FFFC, 0xC0000, 0xFFFFC],
        o < 2 ^ 20 ∧ o % 4 = 0 ∧ reservedOffset o) ∧
      ∀ o ∈ [0x000, 0x004, 0x008, 0x054, 0x06C, 0x080, 0x088, 0x12000, 0x13FFC, 0x20000, 0x3FFFC, 0x40000, 0xBFFFC],
        o < 2 ^ 20 ∧ o % 4 = 0 ∧ readOnlyOffset o := by decide +kernel

theorem witness_IdentificationRegisters :
    hung.resetAsserted = false ∧ State.reset.resetAsserted = false ∧ State.reset.busy = false := by decide +kernel

theorem witness_ReadsHaveNoSideEffect :
    hung.resetAsserted = false ∧ hung.busy = true ∧ State.reset.busy = false ∧
      (∀ o ∈ [0x000, 0x0FFFC, 0x10000, 0xFFFFC], o < 2 ^ 20 ∧ o % 4 = 0) ∧ 0x0FFFC < 0x10000 := by decide +kernel

theorem witness_ConfigurationReadsBack :
    State.reset.resetAsserted = false ∧ State.reset.busy = false ∧
      ∀ c ∈ [(0x020, 0x000000FF#32), (0x074, 0x000000FF#32), (0x078, 0x000000FF#32), (0x100, 0x000000FF#32),
          (0x19C, 0x000000FF#32), (0x024, 0x0000FFFF#32), (0x02C, 0x0000FFFF#32), (0x1A0, 0x0000FFFF#32),
          (0x1D4, 0x0000FFFF#32), (0x028, 0xFFFFFFFF#32), (0x030, 0xFFFFFFFF#32), (0x034, 0x000FFFFF#32),
          (0x038, 0x000FFFFF#32), (0x03C, 0x0000000F#32), (0x040, 0x0000000F#32), (0x044, 0x0000000F#32),
          (0x048, 0xFFFFFFF8#32), (0x04C, 0xFFFFFFFF#32), (0x050, 0xFFFFFFFF#32), (0x070, 0xFFFFFFFF#32)],
        c.1 % 4 = 0 ∧ fieldRead c.1 0xFFFFFFFF#32 = some c.2 := by decide +kernel

theorem witness_ConfigurationWriteFrame :
    State.reset.busy = false ∧
      (∃ t, hostAccess (writeAt 0x19C 0x12345678#32) State.reset = .next t) ∧
      fieldRead 0x19C 0x12345678#32 = some 0x78#32 ∧ fieldRead 0x1A0 0x12345678#32 = some 0x5678#32 ∧
      (∀ o' ∈ [0x000, 0x020, 0x100, 0x198, 0x1A0, 0x1FC], o' < 0x200 ∧ o' % 4 = 0 ∧ o' ≠ 0x19C ∧ ¬followsOthers o') ∧
      (0x100 ≤ 0x19C ∧ 0x19C ≤ 0x19C) ∧ ¬(0x1A0 = 0x020 ∨ (0x100 ≤ 0x1A0 ∧ 0x1A0 ≤ 0x19C)) :=
  ⟨by decide +kernel, ⟨_, rfl⟩, by decide, by decide, by decide, by decide, by decide⟩

theorem witness_DerivedRegisters : State.reset.resetAsserted = false ∧ State.reset.busy = false := by decide +kernel

theorem witness_StatusRegister : hung.resetAsserted = false := by decide +kernel

theorem witness_ControlWriteSetsIrqEnable :
    hung.resetAsserted = false ∧ (0x00000002#32).getLsbD 0 = false ∧ (0xFFFFFFFE#32).getLsbD 0 = false ∧
      (0x00000003#32).getLsbD 0 = true := by decide +kernel

theorem witness_InterruptOutput :
    (∃ t, exec .nop (issued .nop ConfigRegs.reset) = .next t ∧ t.sequencer = .idle) ∧
      State.reset.resetAsserted = false ∧ State.reset.busy = false ∧ hung.resetAsserted = false :=
  ⟨⟨_, rfl, rfl⟩, by decide +kernel, by decide +kernel, by decide +kernel⟩

theorem witness_GridWindow :
    State.reset.resetAsserted = false ∧ State.reset.busy = false ∧ 1023 < 1024 ∧ 1 < 2 := by decide +kernel

theorem witness_PsetAndTdWindows :
    State.reset.resetAsserted = false ∧ State.reset.busy = false ∧ 1 < 2 ∧ 63 < 64 ∧ 255 < 256 ∧ 138 < 139 ∧
      1023 < 1024 := by decide +kernel

theorem witness_AsmWindow :
    State.reset.resetAsserted = false ∧ State.reset.busy = false ∧ 65535 < 65536 ∧ 1 < 2 ∧
      (withBlock 0 State.reset).busy = false ∧ (withBlock 0 State.reset).status.asmValid = true ∧
      12755 < (withBlock 0 State.reset).results.asmLen.toNat := by decide +kernel

theorem witness_CommandAcceptance :
    State.reset.resetAsserted = false ∧ State.reset.busy = false ∧ hung.resetAsserted = false ∧ hung.busy = true := by
  decide +kernel

theorem witness_CommandAcceptance_cmdChanges :
    (∃ t, step (facing (.host (writeAt 0x014 0x50#32))) = .next t ∧ t.cmd = 0x50#32) ∧
      (∃ t, step { hung with events := [.resetLine true] } = .next t ∧ t.cmd = 0#32) ∧ hung.cmd = 0x20#32 ∧
      State.reset.cmd = 0#32 ∧ Event.isReset (.resetLine true) = true ∧ (0x00000001#32).getLsbD 0 = true :=
  ⟨of_next (f := State.cmd) (by decide +kernel), of_next (f := State.cmd) (by decide +kernel), by decide +kernel, rfl, rfl,
    rfl⟩

theorem witness_WritesWhileBusy :
    stalled.resetAsserted = false ∧ stalled.busy = true ∧
      (∀ o ∈ [0x000, 0x014, 0x020, 0xFFFFC], o < 2 ^ 20 ∧ o % 4 = 0 ∧ o ≠ 0x010 ∧ o ≠ 0x018) ∧
      (0xFFFFFFFE#32).getLsbD 0 = false ∧ (0x00000003#32).getLsbD 0 = true ∧
      (HostAccess.mk .w16 0x014#20 (.write 1#32)).width ≠ .w32 ∧
      (HostAccess.mk .w32 0x011#20 (.write 1#32)).offset.toNat % 4 ≠ 0 := by decide +kernel

theorem witness_ResultRegistersWhileBusy :
    (∃ t, exec .transform hung = .next t) ∧ hung.busy = true ∧ State.reset.busy = false ∧
      (∀ o ∈ [0x050, 0x064, 0x068, 0x06C, 0x080, 0x084, 0x088], (resultRead o hung.shadow).isSome) ∧
      (∀ o ∈ [0x020, 0x024, 0x028, 0x02C, 0x030, 0x034, 0x038, 0x03C, 0x040, 0x044, 0x048, 0x04C, 0x070, 0x074, 0x078,
        0x100, 0x19C, 0x1A0, 0x1D4], (configRead o hung.cfg).isSome) ∧ hung.resetAsserted = false :=
  ⟨⟨_, rfl⟩, by decide +kernel, by decide +kernel, by decide +kernel, by decide +kernel, rfl⟩

theorem witness_EveryCommandAnswers : Instr.nop ≠ .transform ∧ Instr.nop ≠ .placeFrame ∧ Instr.nop ≠ .generate := by
  decide

theorem witness_CompletionRecords :
    ∃ t, exec .transform (served .transform standard .fail .okay) = .next t ∧ t.sequencer = .idle :=
  of_next (f := State.sequencer) (by decide +kernel)

theorem witness_OperandErrorsChangeNothing :
    (∃ t, exec .genSet (issued .genSet ConfigRegs.reset) = .next t ∧ (t.sequencer, t.status.errCode) = (.idle, 1#3)) ∧
      ∃ t, exec .generate (issued .generate { standard with freqOffset := 662 }) = .next t ∧
        (t.sequencer, t.status.errCode) = (.idle, 2#3) :=
  ⟨of_next (f := fun t => (t.sequencer, t.status.errCode)) (by decide +kernel),
    of_next (f := fun t => (t.sequencer, t.status.errCode)) (by decide +kernel)⟩

theorem witness_CommandFrames : (∃ t, exec .generate (generating .success) = .next t) ∧ hung.outsideFrame (2 ^ 32) :=
  ⟨⟨_, rfl⟩, by decide +kernel⟩

theorem witness_PhaseIsTheRootSequence : modSeq (-1) = 138 ∧ modSeq 138 = 138 ∧ modSeq 139 = 0 := by decide

theorem witness_RomIsCorrectlyRounded : 0 < 139 ∧ 138 < 139 := by decide

theorem witness_AdditionRoundsToNearestEven :
    finite32 0x3F800000#32 ∧ finite32 0xB3000000#32 ∧ |value32 0x3F800000#32 + value32 0xB3000000#32| < 2 ^ 8 := by
  refine ⟨by decide, by decide, ?_⟩
  have h1 : toScaled 0x3F800000#32 = 2 ^ 149 := by decide +kernel
  have h2 : toScaled 0xB3000000#32 = -2 ^ 124 := by decide +kernel
  rw [value32, value32, h1, h2, abs_lt]
  constructor <;> norm_num

theorem witness_PartialSumsStayNormal :
    139 ≤ 139 ∧ 0 ≤ 139 ∧ re (dftPartial 255 138 138 139) = re (dftPartial 255 138 138 139) := ⟨by decide, by decide, rfl⟩

theorem witness_DftEvalIsAccurate : 255 < 256 ∧ 138 < 139 ∧ 0 < 139 := by decide

theorem witness_RootSamplesHaveUnitMagnitude : 0 < 139 ∧ 138 < 139 := by decide

theorem witness_CoefficientMagnitudes :
    255 < 256 ∧ 138 < 139 ∧ 255 % 139 ≠ 0 ∧ 139 < 256 ∧ 139 % 139 = 0 ∧ 0 % 139 = 0 := by decide

theorem witness_ConfigCheckTable :
    (∀ n ∈ [16, 17, 28, 34, 47, 69], configDetail n = 0#8) ∧
      ∀ n ∈ [0, 1, 15, 18, 27, 35, 46, 70, 139, 140, 255], configDetail n ≠ 0#8 := by decide

theorem witness_GenSetResult :
    ((issued .genSet standard).fillPset.PsetOk ∧ (issued .genSet standard).fillPset.status.psetValid = true) ∧
    configDetail (issued .genSet ConfigRegs.reset).cfg.ncs.toNat ≠ 0#8 ∧
      configDetail (issued .genSet standard).cfg.ncs.toNat = 0#8 ∧ 63 < 64 ∧ 138 < 139 :=
  ⟨⟨fun _ => ⟨by change firstError (issued .genSet standard).configChecks = none; decide +kernel,
    fun _ hi _ hk => psetWord_fill (fun i k => (issued .genSet standard).psetDef i k) hi hk⟩, rfl⟩,
    by decide +kernel⟩

theorem witness_PlaceGridResult :
    (issued .placeGrid ConfigRegs.reset).placeGridRecord ≠ .success ∧
      (issued .placeGrid { standard with freqOffset := -224#16, preambleIndex := 63 }).placeGridRecord = .success ∧
      (issued .placeGrid { standard with freqOffset := 661#16 }).placeGridRecord = .success ∧ 1023 < 1024 := by decide +kernel

theorem witness_CacheChangesNoResult :
    (issued .placeGrid standard).fillPset.PsetOk ∧ (issued .placeGrid standard).fillPset.status.psetValid = true ∧
      ∃ t, exec .placeGrid (issued .placeGrid standard).fillPset = .next t :=
  ⟨fun _ => ⟨by change firstError (issued .placeGrid standard).configChecks = none; decide +kernel,
    fun _ hi _ hk => psetWord_fill (fun i k => (issued .placeGrid standard).psetDef i k) hi hk⟩, rfl, _, rfl⟩

theorem witness_ReorderResult : 0 < 1024 ∧ 1023 < 1024 := by decide

theorem witness_TransformResult :
    (∀ a, (served .transform standard a .okay).stage ≠ .frame ∧ (served .transform standard a .okay).stage ≠ .engine) ∧
      (∀ a, a ≠ .never → (served .transform standard a .okay).EngineLook a [] 3) ∧
      (served .transform standard .never .okay).EngineLook .never [.never] 3 ∧
      (issued .transform standard).EngineLook (Config.engineDraw 3) [] 4 ∧
      hung.stage = .engine ∧ hung.status.tdValid = false ∧ hung.status.asmValid = false ∧
      hung.status.engHeld = true ∧ hung.EngineLook .never [.never] 3 :=
  ⟨fun _ => ⟨nofun, nofun⟩, fun _ h => .inl ⟨h, rfl, rfl⟩, .inr (.inl ⟨rfl, rfl, rfl, rfl⟩),
    .inr (.inr ⟨rfl, rfl, rfl, rfl⟩), rfl, rfl, rfl, rfl, .inr (.inl ⟨rfl, rfl, rfl, rfl⟩)⟩

theorem witness_HangEndsOnlyByReset :
    hung.resetAsserted = false ∧ hung.status.done = false ∧
      hung.sequencer = .busy (.command .transform) .engine ∧ hung.engine.head? = some .never ∧
      stalled.resetAsserted = false ∧ stalled.status.done = false ∧
      stalled.sequencer = .busy (.command .placeFrame) .frame ∧
      stalled.frameAnswers.head? = some (.never 307200 1) ∧ stalled.events = [] ∧
      ∀ e ∈ (Event.host (writeAt 0x014 0x50#32) :: State.events hung),
        e.isReset = false ∧ ∀ a, e ≠ .agentRead a := by
  refine ⟨rfl, rfl, rfl, rfl, rfl, rfl, rfl, rfl, rfl, ?_⟩
  intro e h
  rcases List.mem_singleton.1 h with rfl
  exact ⟨by decide, nofun⟩

theorem witness_AssembledView :
    (withBlock 0 State.reset).BlockOk ∧ (withBlock 0 State.reset).status.asmValid = true ∧
      467 < (withBlock 0 State.reset).results.asmCp.toNat ∧ 11 < (withBlock 0 State.reset).results.asmR.toNat ∧
      1023 < 1024 :=
  ⟨fun _ => ⟨rfl, by change (468#16).toNat ≤ 1024; decide, by change 1 ≤ (12#16).toNat; decide,
    by change (12#16).toNat ≤ 32767; decide,
    by change (12756#26).toNat = (468#16).toNat + (12#16).toNat * 1024; decide⟩, rfl,
    by change 467 < (468#16).toNat; decide, by change 11 < (12#16).toNat; decide, by decide⟩

/-- PLACE_FRAME with a block at 294048 and one answer of frame memory. -/
def placing (f : FrameAnswer) : State := withBlock 294048#32 (served .placeFrame standard .success f)

theorem witness_PlaceFrameResult :
    (issued .placeFrame standard).stage = .start ∧ (issued .placeFrame standard).placeFrameRecord ≠ .success ∧
      (∀ f, (placing f).placeFrameRecord = .success) ∧ stalled.placeFrameRecord = .success ∧
      (placing .okay).FrameLook .okay [] 3 ∧ (placing (.error 0)).FrameLook (.error 0) [] 3 ∧
      (placing (.error 307199)).FrameLook (.error 307199) [] 3 ∧
      (placing (.notYet 5 2)).FrameLook (.notYet 5 2) [] 3 ∧
      stalled.FrameLook (.never 307200 1) [.never 307200 1] 3 :=
  ⟨rfl, by decide +kernel, fun _ => by change (placing .okay).placeFrameRecord = .success; decide +kernel,
    by decide +kernel, .inl ⟨rfl, rfl, rfl⟩, .inl ⟨rfl, rfl, rfl⟩, .inl ⟨rfl, rfl, rfl⟩, .inl ⟨rfl, rfl, rfl⟩,
    .inr (.inl ⟨rfl, rfl, rfl, rfl⟩)⟩

theorem witness_GeneratePreflight :
    (issued .generate { standard with preambleIndex := 64 }).stage = .start ∧
      (issued .generate { standard with preambleIndex := 64 }).generateRecord ≠ .success := by decide +kernel

theorem witness_GenerateResult :
    (∀ a f, (served .generate standard a f).stage = .start ∧ (served .generate standard a f).generateRecord = .success) ∧
      (∀ a f, a ≠ .never → (served .generate standard a f).EngineLook a [] 3) ∧
      (∀ f, (served .generate standard .never f).EngineLook .never [.never] 3) ∧
      (served .generate standard .success .okay).FrameLook .okay [] 3 :=
  ⟨fun _ _ => ⟨rfl, by change (issued .generate standard).generateRecord = .success; decide +kernel⟩,
    fun _ _ h => .inl ⟨h, rfl, rfl⟩, fun _ => .inr (.inl ⟨rfl, rfl, rfl, rfl⟩), .inl ⟨rfl, rfl, rfl⟩⟩

theorem witness_GenerateResumes :
    (∀ a l, State.Inv { generating a with engine := l } ∧
      State.sequencer { generating a with engine := l } = .busy (.command .generate) .engine) ∧
      (∀ a, a ≠ .never → (generating a).EngineLook a [] 3) ∧
      (generating .never).EngineLook .never [.never] 3 ∧
      State.EngineLook { generating .success with engine := [] } (Config.engineDraw 3) [] 4 ∧
      (generating .success).FrameLook (Config.frameDraw 3) [] 4 ∧
      (framing (.error 5)).Inv ∧ (framing (.error 5)).sequencer = .busy (.command .generate) .frame ∧
      (framing (.error 5)).FrameLook (.error 5) [] 3 :=
  ⟨fun a _ => ⟨{ generating_inv a with }, rfl⟩, fun _ h => .inl ⟨h, rfl, rfl⟩, .inr (.inl ⟨rfl, rfl, rfl, rfl⟩),
    .inr (.inr ⟨rfl, rfl, rfl, rfl⟩), .inr (.inr ⟨rfl, rfl, rfl, rfl⟩), framing_inv _, rfl, .inl ⟨rfl, rfl, rfl⟩⟩

theorem witness_GenerateIsTheSixStages :
    (served .generate standard .success .okay).generateRecord = .success ∧
      (served .generate standard .success .okay).engine = .success :: [] ∧
      (served .generate standard .success .okay).frameAnswers = .okay :: [] := by decide +kernel

theorem witness_StandardFrame :
    let s := served .generate standard .success .okay
    (s.stage = .start ∧ s.raced = false ∧ s.cfg.ncs = 69#8 ∧ s.cfg.rbCount = 48#16 ∧ s.cfg.freqOffset = 0#16 ∧
      s.cfg.cpLen = 468#16 ∧ s.cfg.repeatCount = 12#16 ∧ s.cfg.frameIndex = 9#4 ∧ s.cfg.slotIndex = 1#4 ∧
      s.cfg.samplesPerMs = 30720#20 ∧ s.cfg.slotSamples = 15360#20 ∧ s.cfg.preambleIndex = 0#32 ∧
      symbolSum s.opSd s.opSs = 2208) ∧
      ∃ t, exec .generate s = .next t ∧ (t.sequencer, t.status.errCode) = (.idle, 0#3) :=
  ⟨by decide +kernel, of_next (f := fun t => (t.sequencer, t.status.errCode)) (by decide +kernel)⟩

theorem witness_OtherAgentsWrites :
    stalled.frameInProgress = true ∧ ¬stalled.outsideFrame (0#32).toNat ∧
      ¬stalled.outsideFrame (0x257FFF#32).toNat ∧ stalled.outsideFrame (0x258000#32).toNat ∧
      State.reset.frameInProgress = false ∧
      memRead (State.mem { State.reset with mem := memWriteByte [] 5 7#8 }) (5#32).toNat = some 7#8 := by decide +kernel

theorem witness_FrameStaysAsWritten :
    hung.Inv ∧ (∃ t, step hung = .next t) ∧ hung.frameInProgress = false ∧
      ∀ a b, hung.events.head? ≠ some (.agentWrite a b) :=
  ⟨hung_inv, ⟨_, rfl⟩, rfl, nofun⟩

end Sys2Proof.Machine.Tests
end

namespace Sys2Proof.Machine

/-! Binary32 addition (00_scope.md R26). A binary32 value and a sum of two are integer multiples of 2^-149, so "nearest"
is a fact about integers: no value lies strictly between q x 2^k and (q + 1) x 2^k once q has its 24 bits, and `roundMag`
picks the closer of these two neighbours, the even one when both are as near. -/

/-- The magnitude, times 2^149, of the finite pattern `p`, whatever its sign bit (30_encoding.md R231). -/
def magOf (p : Nat) : Nat :=
  if p / 2 ^ 23 % 256 = 0 then p % 2 ^ 23 else (2 ^ 23 + p % 2 ^ 23) * 2 ^ (p / 2 ^ 23 % 256 - 1)

theorem toScaled_eq_magOf (x : Half) :
    toScaled x = if x.toNat < 2 ^ 31 then (magOf x.toNat : ℤ) else -(magOf x.toNat : ℤ) := rfl

theorem magOf_sign_add (p : Nat) : magOf (2 ^ 31 + p) = magOf p := by
  have hexp : (2 ^ 31 + p) / 2 ^ 23 % 256 = p / 2 ^ 23 % 256 := by omega
  have hfrac : (2 ^ 31 + p) % 2 ^ 23 = p % 2 ^ 23 := by omega
  rw [magOf, magOf, hexp, hfrac]

/-- A 24-bit coefficient `c` at exponent `k` is the pattern k x 2^23 + c; at c = 2^24 the carry lands in the exponent. -/
theorem magOf_coefficient {k c : Nat} (hlo : 2 ^ 23 ≤ c) (hhi : c ≤ 2 ^ 24) (hk : k < 254) :
    magOf (k * 2 ^ 23 + c) = c * 2 ^ k := by
  obtain hc | rfl := hhi.lt_or_eq
  · have hexp : (k * 2 ^ 23 + c) / 2 ^ 23 % 256 = k + 1 := by omega
    have hfrac : (k * 2 ^ 23 + c) % 2 ^ 23 = c - 2 ^ 23 := by omega
    rw [magOf, hexp, hfrac, if_neg k.succ_ne_zero, Nat.add_sub_cancel' hlo, Nat.add_sub_cancel]
  · have hexp : (k * 2 ^ 23 + 2 ^ 24) / 2 ^ 23 % 256 = k + 2 := by omega
    have hfrac : (k * 2 ^ 23 + 2 ^ 24) % 2 ^ 23 = 0 := by omega
    rw [magOf, hexp, hfrac, if_neg (by omega), Nat.add_sub_assoc (by decide), pow_succ]
    ring

theorem magOf_of_lt {m : Nat} (h : m < 2 ^ 24) : magOf m = m := by
  obtain hm | hm := Nat.lt_or_ge m (2 ^ 23)
  · rw [magOf, if_pos (by omega), Nat.mod_eq_of_lt hm]
  · simpa using magOf_coefficient (k := 0) hm h.le (by decide)

/-- No binary32 magnitude lies strictly between two neighbours at exponent `k`: one above the lower neighbour has
an exponent of at least `k`, so it is a multiple of 2^k. -/
theorem magOf_gap (p : Nat) {q k : Nat} (hq : 2 ^ 23 ≤ q) : magOf p ≤ q * 2 ^ k ∨ (q + 1) * 2 ^ k ≤ magOf p := by
  have hf : p % 2 ^ 23 < 2 ^ 23 := Nat.mod_lt _ (by decide)
  unfold magOf
  split
  case isTrue => exact .inl ((hf.le.trans hq).trans (Nat.le_mul_of_pos_right q k.two_pow_pos))
  case isFalse =>
    generalize p / 2 ^ 23 % 256 - 1 = j
    obtain hj | hj := Nat.lt_or_ge j k
    · refine .inl ?_
      calc (2 ^ 23 + p % 2 ^ 23) * 2 ^ j ≤ 2 ^ 24 * 2 ^ j := Nat.mul_le_mul_right _ (by omega)
        _ = 2 ^ 23 * 2 ^ (j + 1) := by ring
        _ ≤ q * 2 ^ k := Nat.mul_le_mul hq (Nat.pow_le_pow_right (by decide) hj)
    · obtain ⟨i, rfl⟩ := Nat.exists_eq_add_of_le hj
      rw [pow_add, Nat.mul_comm (2 ^ k), ← Nat.mul_assoc]
      exact (Nat.lt_or_ge q ((2 ^ 23 + p % 2 ^ 23) * 2 ^ i)).symm.imp (Nat.mul_le_mul_right _) (Nat.mul_le_mul_right _)

/-- `t` lies strictly between no two neighbouring multiples of 2^k whose coefficients have 24 bits or more. -/
def AvoidsGaps (t : ℤ) : Prop :=
  ∀ q k : Nat, 2 ^ 23 ≤ q → t ≤ (q * 2 ^ k : ℕ) ∨ ((q + 1) * 2 ^ k : ℕ) ≤ t

theorem magOf_avoidsGaps (p : Nat) : AvoidsGaps (magOf p) := fun _ _ hq => by exact_mod_cast magOf_gap p hq

theorem neg_avoidsGaps (m : Nat) : AvoidsGaps (-(m : ℤ)) := fun _ _ _ => .inl (by omega)

/-- A value and its mirror image both avoid the gaps, whichever of the two is the positive one. -/
theorem toScaled_avoidsGaps (y : Half) : AvoidsGaps (toScaled y) ∧ AvoidsGaps (-toScaled y) := by
  rw [toScaled_eq_magOf]
  split
  · exact ⟨magOf_avoidsGaps _, neg_avoidsGaps _⟩
  · exact ⟨neg_avoidsGaps _, by simpa using magOf_avoidsGaps y.toNat⟩

theorem roundMag_of_lt {m : Nat} (h : m < 2 ^ 24) : roundMag m = m := if_pos h

/-- Past 24 bits, `roundMag` keeps a 24-bit coefficient `q` of `m` at the exponent `k + 1`, and adds 1 to it for a rest
`r` above the half 2^k, or at it when `q` is odd. -/
theorem roundMag_of_ge {m : Nat} (h : 2 ^ 24 ≤ m) :
    ∃ k q r up : Nat, k + 24 = m.log2 ∧ 2 ^ 23 ≤ q ∧ q < 2 ^ 24 ∧ r < 2 ^ (k + 1) ∧ m = q * 2 ^ (k + 1) + r ∧
      roundMag m = (k + 1) * 2 ^ 23 + (q + up) ∧
      (up = 1 ∧ (2 ^ k < r ∨ r = 2 ^ k ∧ q % 2 = 1) ∨ up = 0 ∧ (r < 2 ^ k ∨ r = 2 ^ k ∧ q % 2 = 0)) := by
  have hm : m ≠ 0 := by omega
  obtain ⟨k, hk⟩ := Nat.exists_eq_add_of_le' ((Nat.le_log2 hm).2 h)
  have hlog : m.log2 - 23 = k + 1 := by omega
  have hlo : 2 ^ 23 * 2 ^ (k + 1) ≤ m := by
    rw [← pow_add, ← Nat.le_log2 hm]
    omega
  have hhi : m < 2 ^ 24 * 2 ^ (k + 1) := by
    rw [← pow_add, ← Nat.log2_lt hm]
    omega
  have hround : roundMag m = (k + 1) * 2 ^ 23 + m / 2 ^ (k + 1) + if 2 ^ k < m % 2 ^ (k + 1) ∨
      (m % 2 ^ (k + 1) = 2 ^ k ∧ m / 2 ^ (k + 1) % 2 = 1) then 1 else 0 := by
    simp only [roundMag, if_neg h.not_gt, hlog, Nat.add_sub_cancel]
  refine ⟨k, m / 2 ^ (k + 1), m % 2 ^ (k + 1), _, hk.symm, (Nat.le_div_iff_mul_le (Nat.two_pow_pos _)).2 hlo,
    Nat.div_lt_of_lt_mul (by rwa [Nat.mul_comm]), Nat.mod_lt _ (Nat.two_pow_pos _), (Nat.div_add_mod' _ _).symm,
    hround.trans (Nat.add_assoc _ _ _), ?_⟩
  split <;> omega

/-- A magnitude below 2^8 (2^157 when scaled) rounds to a finite pattern without sign. -/
theorem roundMag_lt {m : Nat} (h : m < 2 ^ 157) : roundMag m < 255 * 2 ^ 23 := by
  obtain hm | hm := Nat.lt_or_ge m (2 ^ 24)
  · rw [roundMag_of_lt hm]
    omega
  · obtain ⟨k, q, r, up, hk, -, hq, -, -, hround, hup⟩ := roundMag_of_ge hm
    have hlog : m.log2 < 157 := (Nat.log2_lt (by omega)).2 h
    omega

/-- `roundMag m` has the magnitude nearest to `m`, the even one of two as near. -/
theorem roundMag_nearest {m : Nat} (h : m < 2 ^ 157) {t : ℤ} (ht : AvoidsGaps t) (hne : t ≠ magOf (roundMag m)) :
    |(magOf (roundMag m) : ℤ) - m| < |t - m| ∨
      |(magOf (roundMag m) : ℤ) - m| = |t - m| ∧ roundMag m % 2 = 0 := by
  obtain hm | hm := Nat.lt_or_ge m (2 ^ 24)
  · have hexact : magOf (roundMag m) = m := by rw [roundMag_of_lt hm, magOf_of_lt hm]
    rw [hexact] at hne ⊢
    exact .inl (by simpa [sub_eq_zero] using hne)
  · obtain ⟨k, q, r, up, hk, hq, hq', hr, rfl, hround, hup⟩ := roundMag_of_ge hm
    have hlog : (q * 2 ^ (k + 1) + r).log2 < 157 := (Nat.log2_lt (by omega)).2 h
    have hmag : magOf (roundMag (q * 2 ^ (k + 1) + r)) = (q + up) * 2 ^ (k + 1) := by
      rw [hround, magOf_coefficient (by omega) (by omega) (by omega)]
    have hgap := ht q (k + 1) hq
    rw [hmag] at hne ⊢
    rw [hround]
    -- What is left is linear in the lower neighbour q x 2^(k+1) and the half distance 2^k.
    simp only [pow_succ, add_mul, one_mul] at *
    generalize 2 ^ k = half at *
    obtain ⟨rfl, hup⟩ | ⟨rfl, hup⟩ := hup <;> simp only [abs] <;> omega

/-- For a magnitude below 2^8 the pattern of `roundScaled` is that of `roundMag` under the sign. -/
theorem toNat_roundScaled {n : ℤ} (h : n.natAbs < 2 ^ 157) :
    (roundScaled n).toNat = if n < 0 then 2 ^ 31 + roundMag n.natAbs else roundMag n.natAbs := by
  have hfin := roundMag_lt h
  rw [roundScaled, min_eq_left hfin.le, BitVec.toNat_ofNat]
  exact Nat.mod_eq_of_lt (by split <;> omega)

theorem toScaled_roundScaled {n : ℤ} (h : n.natAbs < 2 ^ 157) :
    toScaled (roundScaled n) = if n < 0 then -(magOf (roundMag n.natAbs) : ℤ) else magOf (roundMag n.natAbs) := by
  have hfin := roundMag_lt h
  rw [toScaled_eq_magOf, toNat_roundScaled h]
  split
  · rw [if_neg (by omega), magOf_sign_add]
  · rw [if_pos (by omega)]

theorem finite32_roundScaled {n : ℤ} (h : n.natAbs < 2 ^ 157) : finite32 (roundScaled n) := by
  have hfin := roundMag_lt h
  rw [finite32, toNat_roundScaled h]
  split <;> omega

theorem roundScaled_lsb {n : ℤ} (h : n.natAbs < 2 ^ 157) (heven : roundMag n.natAbs % 2 = 0) :
    (roundScaled n).getLsbD 0 = false := by
  have heven' : (roundScaled n).toNat % 2 = 0 := by
    rw [toNat_roundScaled h]
    split <;> omega
  simpa [BitVec.getLsbD, Nat.testBit_zero] using heven'

/-- The sign is a mirror: below 0 the nearest value is that of the magnitude, for the mirrored `toScaled y`. -/
theorem roundScaled_nearest {n : ℤ} (h : n.natAbs < 2 ^ 157) (y : Half) (hne : toScaled y ≠ toScaled (roundScaled n)) :
    |toScaled (roundScaled n) - n| < |toScaled y - n| ∨
      |toScaled (roundScaled n) - n| = |toScaled y - n| ∧ (roundScaled n).getLsbD 0 = false := by
  obtain ⟨hpos, hneg⟩ := toScaled_avoidsGaps y
  rw [toScaled_roundScaled h] at hne ⊢
  split at hne
  case isTrue hn =>
    have hnear := roundMag_nearest h hneg (by omega)
    have hmirror (z : ℤ) : |-z - n.natAbs| = |z - n| := by
      rw [← abs_neg]
      congr 1
      omega
    rw [if_pos hn, ← hmirror, ← hmirror, neg_neg]
    exact hnear.imp_right fun ⟨hdist, heven⟩ => ⟨hdist, roundScaled_lsb h heven⟩
  case isFalse hn =>
    have hnear := roundMag_nearest h hpos hne
    rw [Int.natAbs_of_nonneg (not_lt.1 hn)] at hnear
    rw [if_neg hn]
    exact hnear.imp_right fun ⟨hdist, heven⟩ => ⟨hdist, roundScaled_lsb h heven⟩

/-- RN32 in integers: a scaled sum below 2^157 in magnitude is rounded as R26 says. -/
theorem isRN32_roundScaled {n : ℤ} (h : n.natAbs < 2 ^ 157) : IsRN32 (roundScaled n) ((n : ℝ) / 2 ^ 149) := by
  have hdist (x : Half) : |value32 x - (n : ℝ) / 2 ^ 149| = ((|toScaled x - n| : ℤ) : ℝ) / 2 ^ 149 := by
    rw [value32, ← sub_div, abs_div, abs_of_pos (by positivity : (0 : ℝ) < 2 ^ 149), Int.cast_abs, Int.cast_sub]
  refine ⟨finite32_roundScaled h, fun hzero => ?_, fun y _ hne => ?_⟩
  · obtain rfl : n = 0 := by simpa using hzero
    rfl
  · rw [hdist, hdist, div_lt_div_iff_of_pos_right (by positivity), div_left_inj' (by positivity), Int.cast_lt,
      Int.cast_inj]
    exact roundScaled_nearest h y hne

theorem value32_add (a b : Half) : value32 a + value32 b = ((toScaled a + toScaled b : ℤ) : ℝ) / 2 ^ 149 := by
  rw [value32, value32, ← add_div, Int.cast_add]

theorem natAbs_lt_of_scaled {n : ℤ} (h : |(n : ℝ) / 2 ^ 149| < 2 ^ 8) : n.natAbs < 2 ^ 157 := by
  rw [abs_div, abs_of_pos (by positivity : (0 : ℝ) < 2 ^ 149), div_lt_iff₀ (by positivity), ← pow_add] at h
  have hint : |n| < 2 ^ 157 := by exact_mod_cast h
  rw [Int.abs_eq_natAbs] at hint
  omega

/-- Settles O33: the scaled sum is exact, so its one rounding is RN32 of the sum of the values. -/
theorem additionRoundsToNearestEven : Obligations.AdditionRoundsToNearestEven := by
  refine ⟨fun a b _ _ hsum => ?_, fun a b => ⟨re_cplx _ _, im_cplx _ _⟩⟩
  rw [value32_add] at hsum ⊢
  exact isRN32_roundScaled (natAbs_lt_of_scaled hsum)

end Sys2Proof.Machine

namespace Sys2Proof.Machine

/-! The host port's registers (10_state.md R51 to R129): where each one lies, what a write of it stores, what it reads
after a write of another, and after a reset. -/

variable {s : State} {o : Nat} {r : Register} {data : Half}

/-! ### The offset of a register -/

/-- The offset of each register (10_state.md R52 to R60, R100 to R127). -/
def Register.offset : Register → Nat
  | .id => 0x000 | .caps0 => 0x004 | .caps1 => 0x008 | .ctrl => 0x010 | .cmd => 0x014 | .status => 0x018
  | .ncs => 0x020 | .rbCount => 0x024 | .freqOffset => 0x028 | .cpLen => 0x02C | .repeatCount => 0x030
  | .samplesPerMs => 0x034 | .slotSamples => 0x038 | .frameIndex => 0x03C | .slotIndex => 0x040
  | .startSymbol => 0x044 | .fbBase => 0x048 | .preambleIndex => 0x04C | .frameOffset => 0x050
  | .frameLen => 0x054 | .cardV => 0x058 | .iLength => 0x05C | .gridStart => 0x060
  | .asmLen => 0x064 | .asmCp => 0x068 | .asmR => 0x06C | .qN => 0x070 | .qU => 0x074 | .qV => 0x078
  | .qRe => 0x080 | .qIm => 0x084 | .qPhase => 0x088
  | .rootTable j => 0x100 + 4 * j
  | .symDur j => 0x1A0 + 4 * j

/-- The entries the two tables have (10_state.md R126, R127); every other register is one register. -/
def Register.Exists : Register → Prop
  | .rootTable j => j < 40
  | .symDur j => j < 14
  | _ => True

/-- The register block holds nothing, or a register at its own offset. -/
theorem registerAt_cases (o : Nat) (h4 : o % 4 = 0) :
    registerAt o = .reserved ∨ ∃ r, registerAt o = .register r ∧ r.offset = o ∧ r.Exists := by
  unfold registerAt
  split
  case isTrue h => exact .inr ⟨_, rfl, by simp only [Register.offset]; omega, by simp only [Register.Exists]; omega⟩
  split
  case isTrue h => exact .inr ⟨_, rfl, by simp only [Register.offset]; omega, by simp only [Register.Exists]; omega⟩
  split
  case h_33 => exact .inl rfl
  all_goals exact .inr ⟨_, rfl, rfl, trivial⟩

theorem offset_of_registerAt (h4 : o % 4 = 0) (h : registerAt o = .register r) : r.offset = o ∧ r.Exists := by
  obtain hnone | ⟨r', hr', hoff⟩ := registerAt_cases o h4
  · simp [hnone] at h
  · rw [hr', Target.register.injEq] at h
    exact h ▸ hoff

/-- Each register is found at its offset, and nowhere else. -/
theorem register_eq_iff {r₀ : Register} (h4 : o % 4 = 0) (h : registerAt o = .register r)
    (h₀ : registerAt r₀.offset = .register r₀) : r = r₀ ↔ o = r₀.offset := by
  constructor
  · rintro rfl
    exact (offset_of_registerAt h4 h).1.symm
  · rintro rfl
    simpa [h] using h₀

theorem registerAt_rootTable_offset {j : Nat} (hj : j < 40) :
    registerAt (Register.rootTable j).offset = .register (.rootTable j) := by
  have hdiv : (0x100 + 4 * j - 0x100) / 4 = j := by omega
  rw [Register.offset, registerAt_rootTable (by omega) (by omega), hdiv]

theorem registerAt_symDur_offset {j : Nat} (hj : j < 14) :
    registerAt (Register.symDur j).offset = .register (.symDur j) := by
  have hdiv : (0x1A0 + 4 * j - 0x1A0) / 4 = j := by omega
  rw [Register.offset, registerAt_symDur (by omega) (by omega), hdiv]

/-! ### What a write stores: one rule per configuration register -/

section Fields

variable (c : ConfigRegs) (r : Register) (data : Half)

@[simp] theorem write_ncs :
    (c.write r data).ncs = if r = .ncs then data.extractLsb' 0 8 else c.ncs := by
  cases r <;> rfl

@[simp] theorem write_rbCount :
    (c.write r data).rbCount = if r = .rbCount then data.extractLsb' 0 16 else c.rbCount := by
  cases r <;> rfl

@[simp] theorem write_freqOffset :
    (c.write r data).freqOffset = if r = .freqOffset then data.extractLsb' 0 16 else c.freqOffset := by
  cases r <;> rfl

@[simp] theorem write_cpLen :
    (c.write r data).cpLen = if r = .cpLen then data.extractLsb' 0 16 else c.cpLen := by
  cases r <;> rfl

@[simp] theorem write_repeatCount :
    (c.write r data).repeatCount = if r = .repeatCount then data.extractLsb' 0 16 else c.repeatCount := by
  cases r <;> rfl

@[simp] theorem write_samplesPerMs :
    (c.write r data).samplesPerMs = if r = .samplesPerMs then data.extractLsb' 0 20 else c.samplesPerMs := by
  cases r <;> rfl

@[simp] theorem write_slotSamples :
    (c.write r data).slotSamples = if r = .slotSamples then data.extractLsb' 0 20 else c.slotSamples := by
  cases r <;> rfl

@[simp] theorem write_frameIndex :
    (c.write r data).frameIndex = if r = .frameIndex then data.extractLsb' 0 4 else c.frameIndex := by
  cases r <;> rfl

@[simp] theorem write_slotIndex :
    (c.write r data).slotIndex = if r = .slotIndex then data.extractLsb' 0 4 else c.slotIndex := by
  cases r <;> rfl

@[simp] theorem write_startSymbol :
    (c.write r data).startSymbol = if r = .startSymbol then data.extractLsb' 0 4 else c.startSymbol := by
  cases r <;> rfl

@[simp] theorem write_fbBase :
    (c.write r data).fbBase = if r = .fbBase then data.extractLsb' 3 29 else c.fbBase := by
  cases r <;> rfl

@[simp] theorem write_preambleIndex :
    (c.write r data).preambleIndex = if r = .preambleIndex then data else c.preambleIndex := by
  cases r <;> rfl

@[simp] theorem write_qN :
    (c.write r data).qN = if r = .qN then data else c.qN := by
  cases r <;> rfl

@[simp] theorem write_qU :
    (c.write r data).qU = if r = .qU then data.extractLsb' 0 8 else c.qU := by
  cases r <;> rfl

@[simp] theorem write_qV :
    (c.write r data).qV = if r = .qV then data.extractLsb' 0 8 else c.qV := by
  cases r <;> rfl

@[simp] theorem nth_write_rootTable (j : Nat) : nth 0#8 (c.write r data).rootTable j =
    if r = .rootTable j ∧ j < 40 then data.extractLsb' 0 8 else nth 0#8 c.rootTable j := by
  cases r with
  | rootTable k =>
    by_cases hj : j < 40
    · simp [ConfigRegs.write, nth_setNth, hj, eq_comm]
    · simp [ConfigRegs.write, nth_setNth, hj, nth_ge 0#8 c.rootTable (not_lt.1 hj)]
  | _ => rfl

@[simp] theorem nth_write_symDur (j : Nat) : nth 0#16 (c.write r data).symDur j =
    if r = .symDur j ∧ j < 14 then data.extractLsb' 0 16 else nth 0#16 c.symDur j := by
  cases r with
  | symDur k =>
    by_cases hj : j < 14
    · simp [ConfigRegs.write, nth_setNth, hj, eq_comm]
    · simp [ConfigRegs.write, nth_setNth, hj, nth_ge 0#16 c.symDur (not_lt.1 hj)]
  | _ => rfl

end Fields

/-- A write of any register but CMD is a write of its field, of FRAME_OFFSET, or of nothing. -/
theorem writeRegister_eq (hr : r ≠ .cmd) : s.writeRegister r data = { s with
    cfg := s.cfg.write r data
    results := { s.results with frameOffset := if r = .frameOffset then data else s.results.frameOffset }
    status := { s.status with psetValid := s.status.psetValid && !r.feedsPset } } := by
  cases r with
  | cmd => exact absurd rfl hr
  | frameOffset => simp [State.writeRegister, ConfigRegs.write, Register.feedsPset]
  | _ => rfl

/-- The fields after a write, by offset. -/
theorem write_writtenAt (c : ConfigRegs) (h4 : o % 4 = 0) (h : registerAt o = .register r) :
    c.WrittenAt o data (c.write r data) where
  ncs := by simp [register_eq_iff (r₀ := .ncs) h4 h rfl, Register.offset]
  rbCount := by simp [register_eq_iff (r₀ := .rbCount) h4 h rfl, Register.offset]
  freqOffset := by simp [register_eq_iff (r₀ := .freqOffset) h4 h rfl, Register.offset]
  cpLen := by simp [register_eq_iff (r₀ := .cpLen) h4 h rfl, Register.offset]
  repeatCount := by simp [register_eq_iff (r₀ := .repeatCount) h4 h rfl, Register.offset]
  samplesPerMs := by simp [register_eq_iff (r₀ := .samplesPerMs) h4 h rfl, Register.offset]
  slotSamples := by simp [register_eq_iff (r₀ := .slotSamples) h4 h rfl, Register.offset]
  frameIndex := by simp [register_eq_iff (r₀ := .frameIndex) h4 h rfl, Register.offset]
  slotIndex := by simp [register_eq_iff (r₀ := .slotIndex) h4 h rfl, Register.offset]
  startSymbol := by simp [register_eq_iff (r₀ := .startSymbol) h4 h rfl, Register.offset]
  fbBase := by simp [register_eq_iff (r₀ := .fbBase) h4 h rfl, Register.offset]
  preambleIndex := by simp [register_eq_iff (r₀ := .preambleIndex) h4 h rfl, Register.offset]
  qN := by simp [register_eq_iff (r₀ := .qN) h4 h rfl, Register.offset]
  qU := by simp [register_eq_iff (r₀ := .qU) h4 h rfl, Register.offset]
  qV := by simp [register_eq_iff (r₀ := .qV) h4 h rfl, Register.offset]
  rootTable j hj := by
    have h₀ : registerAt (Register.rootTable j).offset = .register (.rootTable j) := registerAt_rootTable_offset hj
    simp [register_eq_iff h4 h h₀, Register.offset, hj]
  symDur j hj := by
    have h₀ : registerAt (Register.symDur j).offset = .register (.symDur j) := registerAt_symDur_offset hj
    simp [register_eq_iff h4 h h₀, Register.offset, hj]

/-- A write of NCS or ROOT_TABLE feeds PSET, by offset (10_state.md R64). -/
theorem feedsPset_eq (h4 : o % 4 = 0) (h : registerAt o = .register r) :
    r.feedsPset = decide (o = 0x020 ∨ (0x100 ≤ o ∧ o ≤ 0x19C)) := by
  obtain ⟨rfl, hex⟩ := offset_of_registerAt h4 h
  cases r with
  | rootTable j =>
    simp only [Register.Exists] at hex
    exact (decide_eq_true (by simp only [Register.offset]; omega)).symm
  | symDur j =>
    exact (decide_eq_false (by simp only [Register.offset]; omega)).symm
  | _ => rfl

/-! ### What a field reads back -/

/-- The low bits of a word, zero-extended, are the word under their mask. -/
theorem zeroExtend_extractLsb' (data : Half) {n : Nat} (hn : n ≤ 32) :
    (data.extractLsb' 0 n).zeroExtend 32 = data &&& BitVec.ofNat 32 (2 ^ n - 1) := by
  have hpow : 2 ^ n ≤ 2 ^ 32 := Nat.pow_le_pow_right (by decide) hn
  apply BitVec.eq_of_toNat_eq
  have hmask : 2 ^ n - 1 < 2 ^ 32 := by omega
  have hlow : data.toNat % 2 ^ n < 2 ^ 32 := (Nat.mod_lt _ n.two_pow_pos).trans_le hpow
  rw [BitVec.toNat_and, BitVec.toNat_ofNat, Nat.mod_eq_of_lt hmask, Nat.and_two_pow_sub_one_eq_mod]
  simpa using hlow

/-- FB_BASE reads back with bits [2:0] 0 (10_state.md R110). -/
theorem fbBaseWord_extractLsb' (data : Half) : fbBaseWord (data.extractLsb' 3 29) = data &&& 0xFFFFFFF8#32 := by
  have hmask : 0xFFFFFFF8#32 = BitVec.allOnes 29 ++ 0#3 := by decide
  rw [hmask]
  apply BitVec.eq_of_getLsbD_eq
  intro j hj
  simp only [fbBaseWord, BitVec.getLsbD_append, BitVec.getLsbD_and, BitVec.getLsbD_extractLsb',
    BitVec.getLsbD_allOnes, BitVec.getLsbD_zero]
  split
  · simp
  · have hlt : j - 3 < 29 := by omega
    have hadd : 3 + (j - 3) = j := by omega
    simp [hlt, hadd]

theorem visibleResults_of_idle (hb : s.busy = false) : s.visibleResults = s.results := by
  simp [State.visibleResults, hb]

/-- A field reads back the bits of the data it keeps. -/
theorem readRegister_writeRegister (hb : s.busy = false) (h4 : o % 4 = 0) (h : registerAt o = .register r) {v : Half}
    (hv : fieldRead o data = some v) : (s.writeRegister r data).readRegister r = v := by
  obtain ⟨rfl, hex⟩ := offset_of_registerAt h4 h
  have hb' : (s.writeRegister .frameOffset data).busy = false := hb
  cases r with
  | ncs | qU | qV =>
    cases hv
    exact zeroExtend_extractLsb' data (n := 8) (by decide)
  | rbCount | cpLen =>
    cases hv
    exact zeroExtend_extractLsb' data (n := 16) (by decide)
  | freqOffset | repeatCount =>
    cases hv
    exact congrArg (BitVec.signExtend 32) (BitVec.setWidth_eq_extractLsb' (by decide)).symm
  | samplesPerMs | slotSamples =>
    cases hv
    exact zeroExtend_extractLsb' data (n := 20) (by decide)
  | frameIndex | slotIndex | startSymbol =>
    cases hv
    exact zeroExtend_extractLsb' data (n := 4) (by decide)
  | fbBase =>
    cases hv
    exact fbBaseWord_extractLsb' data
  | preambleIndex | qN =>
    cases hv
    rfl
  | frameOffset =>
    cases hv
    rw [State.readRegister, visibleResults_of_idle hb']
    rfl
  | rootTable j =>
    have hj : j < 40 := hex
    rw [Register.offset, fieldRead, if_pos (by omega)] at hv
    cases hv
    rw [State.readRegister, writeRegister_eq (r := .rootTable j) (by simp), nth_write_rootTable, if_pos ⟨rfl, hj⟩]
    exact zeroExtend_extractLsb' data (n := 8) (by decide)
  | symDur j =>
    have hj : j < 14 := hex
    rw [Register.offset, fieldRead, if_neg (by omega), if_pos (by omega)] at hv
    cases hv
    rw [State.readRegister, writeRegister_eq (r := .symDur j) (by simp), nth_write_symDur, if_pos ⟨rfl, hj⟩]
    exact zeroExtend_extractLsb' data (n := 16) (by decide)
  | _ => cases hv

/-- A write of another register leaves what a register reads, but for STATUS and the derived registers. -/
theorem readRegister_writeRegister_other {r' : Register} (hb : s.busy = false) (hr : r ≠ .cmd) (hne : r ≠ r')
    (hf : ¬followsOthers r'.offset) : (s.writeRegister r data).readRegister r' = s.readRegister r' := by
  have hb' : (s.writeRegister r data).busy = false := by rw [writeRegister_eq hr]; exact hb
  have hres : (s.writeRegister r data).visibleResults =
      { s.results with frameOffset := if r = .frameOffset then data else s.results.frameOffset } := by
    rw [visibleResults_of_idle hb', writeRegister_eq hr]
  have hcfg : (s.writeRegister r data).cfg = s.cfg.write r data := by rw [writeRegister_eq hr]
  cases r' with
  | status | frameLen | cardV | iLength | gridStart => exact absurd (by decide) hf
  | ctrl | cmd => rw [writeRegister_eq hr]; rfl
  | _ => simp [State.readRegister, hres, hcfg, visibleResults_of_idle hb, hne]

/-! ### The offsets of the configuration and argument registers -/

/-- Every offset that has a field is a register's, and none of CTRL, CMD and STATUS. -/
theorem register_of_fieldRead {v : Half} (h4 : o % 4 = 0) (hv : fieldRead o data = some v) :
    o < 0x200 ∧ ∃ r, registerAt o = .register r ∧ r ≠ .ctrl ∧ r ≠ .cmd ∧ r ≠ .status := by
  have hfield : o < 0x200 ∧ registerAt o ≠ .reserved ∧ o ≠ 0x010 ∧ o ≠ 0x014 ∧ o ≠ 0x018 := by
    unfold fieldRead at hv
    split_ifs at hv with h1 h2 h3 h4 h5 h6 h7
    · obtain rfl | rfl | rfl | ⟨hlo, hhi⟩ := h1
      · decide
      · decide
      · decide
      · rw [registerAt_rootTable hlo (by omega)]
        exact ⟨by omega, nofun, by omega, by omega, by omega⟩
    · obtain rfl | rfl | ⟨hlo, hhi⟩ := h2
      · decide
      · decide
      · rw [registerAt_symDur hlo (by omega)]
        exact ⟨by omega, nofun, by omega, by omega, by omega⟩
    · obtain rfl | rfl := h3 <;> decide
    · obtain rfl | rfl := h4 <;> decide
    · obtain rfl | rfl | rfl := h5 <;> decide
    · subst h6; decide
    · obtain rfl | rfl | rfl := h7 <;> decide
  obtain ⟨hlt, hsome, hctrl, hcmd, hstatus⟩ := hfield
  obtain hnone | ⟨r, hr, rfl, -⟩ := registerAt_cases o h4
  · exact absurd hnone hsome
  · exact ⟨hlt, r, hr, fun h => hctrl (h ▸ rfl), fun h => hcmd (h ▸ rfl), fun h => hstatus (h ▸ rfl)⟩

/-! ### What a write of each kind of target does -/

theorem hostWrite_ctrl (data : Half) : s.hostWrite (.register .ctrl) data =
    if data.getLsbD 0 then s.doReset else { s with irqEn := data.getLsbD 1 } := rfl

theorem hostWrite_grid {j k : Nat} (hb : s.busy = false) : s.hostWrite (.grid j k) data =
    { s with grid := setNth zeroSample s.grid j (setHalf k data (word s.grid j)) } := by
  simp [State.hostWrite, hb]

/-- The read-only registers (10_state.md R52 to R54, R113 to R119, R123 to R125). -/
def Register.readOnly : Register → Bool
  | .id | .caps0 | .caps1 | .frameLen | .cardV | .iLength | .gridStart | .asmLen | .asmCp | .asmR | .qRe | .qIm
  | .qPhase => true
  | _ => false

/-- The targets that ignore every write: what is read-only, and the reserved offsets (20_memory.md R152). -/
def Target.ignoresWrites : Target → Bool
  | .register r => r.readOnly
  | .grid _ _ => false
  | .td _ _ | .pset _ _ _ | .asm _ _ | .reserved => true

theorem writeRegister_readOnly (hr : r.readOnly = true) : s.writeRegister r data = s := by
  cases r with
  | id | caps0 | caps1 | frameLen | cardV | iLength | gridStart | asmLen | asmCp | asmR | qRe | qIm | qPhase =>
    simp [State.writeRegister, ConfigRegs.write, Register.feedsPset]
  | _ => cases hr

theorem hostWrite_ignored {t : Target} (hb : s.busy = false) (ht : t.ignoresWrites = true) :
    s.hostWrite t data = s := by
  cases t with
  | register r =>
    have hc : r ≠ .ctrl := by rintro rfl; cases ht
    have hs : r ≠ .status := by rintro rfl; cases ht
    rw [hostWrite_register hb hc hs, writeRegister_readOnly ht]
  | grid j k => cases ht
  | _ => simp [State.hostWrite, hb]

/-- A write of what ignores writes is answered OKAY, with nothing else changed. -/
theorem hostAccess_write_ignored (hr : s.resetAsserted = false) (hb : s.busy = false) (ho : o < 2 ^ 20)
    (h4 : o % 4 = 0) (ht : (targetAt o).ignoresWrites = true) :
    hostAccess (writeAt o data) s = .next { s with response := okay 0#32 } := by
  rw [hostAccess_writeAt hr ho h4, hostWrite_ignored hb ht]
  rfl

/-! ### Accesses of registers -/

/-- A write of a register other than CTRL and STATUS while not BUSY. -/
theorem hostAccess_writeRegister (hr : s.resetAsserted = false) (hb : s.busy = false) (ho : o < 0x200)
    (h4 : o % 4 = 0) (h : registerAt o = .register r) (hc : r ≠ .ctrl) (hs : r ≠ .status) :
    hostAccess (writeAt o data) s = .next { s.writeRegister r data with response := okay 0#32 } := by
  rw [hostAccess_writeAt hr (by omega) h4, targetAt_low ho, h, hostWrite_register hb hc hs]
  rfl

theorem hostAccess_readRegister (hr : s.resetAsserted = false) (ho : o < 0x200) (h4 : o % 4 = 0)
    (h : registerAt o = .register r) :
    hostAccess (readAt o) s = .next { s with response := okay (s.readRegister r) } := by
  rw [hostAccess_readAt hr (by omega) h4, targetAt_low ho, h]
  rfl

/-- Settles O11: CAPS1 shows IDFT_NORM in bit 16. -/
theorem identificationRegisters : Obligations.IdentificationRegisters := by
  intro s hr
  refine ⟨fun hb data o ho => ?_, hostAccess_readRegister (o := 0x000) (r := .id) hr (by decide) (by decide) rfl,
    hostAccess_readRegister (o := 0x004) (r := .caps0) hr (by decide) (by decide) rfl, ?_⟩
  · obtain rfl | rfl | rfl := ho <;> exact hostAccess_write_ignored hr hb (by decide) (by decide) rfl
  · have hcaps : s.readRegister .caps1 = if Config.idftNorm then 0x00014028#32 else 0x00004028#32 := by
      rw [State.readRegister]
      cases Config.idftNorm <;> decide
    rw [← hcaps]
    exact hostAccess_readRegister (o := 0x008) (r := .caps1) hr (by decide) (by decide) rfl

/-! ### The derived registers (10_state.md R113 to R116) -/

theorem cardV_le (ncs : Nat) : cardV ncs ≤ 139 := by
  unfold cardV
  split
  · exact Nat.zero_le _
  · exact Nat.div_le_self _ _

theorem iLength_le (ncs : Nat) : iLength ncs ≤ 64 := by
  unfold iLength
  split
  · exact Nat.zero_le _
  · exact Nat.div_le_self _ _

/-- GRID_START fits a 32-bit signed number: RB_COUNT is 16 bits and FREQ_OFFSET 16 bits signed. -/
theorem toInt_ofInt_opStart (s : State) : (BitVec.ofInt 32 s.opStart).toInt = s.opStart := by
  have hrb : s.cfg.rbCount.toNat < 2 ^ 16 := s.cfg.rbCount.isLt
  have hlo : -2 ^ 15 ≤ s.cfg.freqOffset.toInt := by simpa using BitVec.le_toInt s.cfg.freqOffset
  have hhi : s.cfg.freqOffset.toInt < 2 ^ 15 := by simpa using BitVec.toInt_lt (x := s.cfg.freqOffset)
  have hstart : s.opStart = (1024 - 12 * (s.cfg.rbCount.toNat : Int)) / 2 + s.cfg.freqOffset.toInt := rfl
  rw [BitVec.toInt_ofInt, Int.bmod_eq_of_le] <;> omega

/-- Settles O15: each value fits its register, so the register is the exact number. -/
theorem derivedRegisters : Obligations.DerivedRegisters := by
  refine ⟨fun s => ?_, fun s o data hr hb ho => ?_, rfl, rfl, rfl, rfl⟩
  · have hflen : (BitVec.ofNat 32 s.opFlen).toNat = s.opFlen := by
      have hspm : s.cfg.samplesPerMs.toNat < 2 ^ 20 := s.cfg.samplesPerMs.isLt
      have hdef : s.opFlen = 10 * s.cfg.samplesPerMs.toNat := rfl
      rw [BitVec.toNat_ofNat, Nat.mod_eq_of_lt (by omega)]
    have hcard : (BitVec.ofNat 32 (cardV s.opNcs)).toNat = cardV s.opNcs := by
      have hle := cardV_le s.opNcs
      rw [BitVec.toNat_ofNat, Nat.mod_eq_of_lt (by omega)]
    have hilen : (BitVec.ofNat 32 (iLength s.opNcs)).toNat = iLength s.opNcs := by
      have hle := iLength_le s.opNcs
      rw [BitVec.toNat_ofNat, Nat.mod_eq_of_lt (by omega)]
    refine ⟨_, BitVec.ofNat 32 (cardV s.opNcs), _, _, rfl, hflen, rfl, hcard, rfl, ?_, rfl, toInt_ofInt_opStart s⟩
    rw [hcard]
    exact hilen
  · obtain rfl | rfl | rfl | rfl := ho <;> exact hostAccess_write_ignored hr hb (by decide) (by decide) rfl

/-! ### STATUS (10_state.md R60) -/

theorem statusWord_of_reset (hs : s.status = Status.reset) (hb : s.busy = false) : s.statusWord = 0#32 := by
  rw [State.statusWord, hs, hb]
  decide

theorem getLsbD_append_bit_zero {n : Nat} (x : BitVec n) (b : Bool) : (x ++ bit b).getLsbD 0 = b := by
  simp [BitVec.getElem_append, bit]

theorem getLsbD_append_bit_succ {n : Nat} (x : BitVec n) (b : Bool) (j : Nat) :
    (x ++ bit b).getLsbD (j + 1) = x.getLsbD j := by
  simp [BitVec.getLsbD_append, bit]

theorem extractLsb'_append_skip {n : Nat} (m : Nat) (x : BitVec n) (y : BitVec m) (start len : Nat) :
    (x ++ y).extractLsb' (start + m) len = x.extractLsb' start len := by
  simp [BitVec.extractLsb'_append_eq_of_le]

theorem extractLsb'_append_bit_succ {n : Nat} (x : BitVec n) (b : Bool) (start len : Nat) :
    (x ++ bit b).extractLsb' (start + 1) len = x.extractLsb' start len :=
  extractLsb'_append_skip 1 x (bit b) start len

/-- The fields of STATUS above its eight flags: ERR_CODE, the reserved bits, ERR_DETAIL, LAST_OPC. -/
theorem fields_above_flags (a b : BitVec 8) (c : BitVec 5) (d : BitVec 3) :
    (a ++ b ++ c ++ d).extractLsb' 0 3 = d ∧ (a ++ b ++ c ++ d).extractLsb' 3 5 = c ∧
      (a ++ b ++ c ++ d).extractLsb' 8 8 = b ∧ (a ++ b ++ c ++ d).extractLsb' 16 8 = a := by
  have skip (start len : Nat) : (a ++ b ++ c ++ d).extractLsb' (start + 3) len = (a ++ b ++ c).extractLsb' start len :=
    extractLsb'_append_skip 3 _ d start len
  have skip' (start len : Nat) : (a ++ b ++ c).extractLsb' (start + 5) len = (a ++ b).extractLsb' start len :=
    extractLsb'_append_skip 5 _ c start len
  exact ⟨BitVec.extractLsb'_append_eq_right, (skip 0 5).trans BitVec.extractLsb'_append_eq_right,
    ((skip 5 8).trans (skip' 0 8)).trans BitVec.extractLsb'_append_eq_right,
    ((skip 13 8).trans (skip' 8 8)).trans BitVec.extractLsb'_append_eq_left⟩

/-- A W1C bit after a write (10_state.md R51). -/
theorem and_not_eq_ite (held cleared : Bool) : (held && !cleared) = if cleared then false else held := by
  cases cleared <;> simp

/-- Settles O16: a flag is found by passing the bits below it, and a write of STATUS is taken BUSY or not. -/
theorem statusRegister : Obligations.StatusRegister := by
  refine ⟨congrArg okay (statusWord_of_reset rfl rfl), fun s =>
    ⟨⟨s.statusWord, rfl, ?_⟩, fun data hr => ?_⟩⟩
  · simp only [State.statusWord, getLsbD_append_bit_zero, getLsbD_append_bit_succ, extractLsb'_append_bit_succ,
      true_and]
    exact fields_above_flags _ _ _ _
  · rw [hostAccess_writeAt hr (by decide) (by decide)]
    have hwrite : s.hostWrite (targetAt 0x018) data = { s with status := s.status.writeOneToClear data } := rfl
    rw [hwrite, Status.writeOneToClear, and_not_eq_ite, and_not_eq_ite]
    rfl

/-- Settles O13: an offset with a field is one register's, and a write of it stores that field alone. -/
theorem configurationReadsBack : Obligations.ConfigurationReadsBack := by
  intro s o data v hr hb h4 hv
  obtain ⟨ho, r, hreg, hctrl, hcmd, hstatus⟩ := register_of_fieldRead h4 hv
  have hread : (s.writeRegister r data).readRegister r = v := readRegister_writeRegister hb h4 hreg hv
  rw [writeRegister_eq hcmd] at hread
  refine ⟨_, _, hostAccess_writeRegister hr hb ho h4 hreg hctrl hstatus, hostAccess_readRegister ?_ ho h4 hreg, ?_,
    ?_, ?_⟩
  · rw [writeRegister_eq hcmd]
    exact hr
  · exact congrArg okay (by rw [writeRegister_eq hcmd]; exact hread)
  · rw [writeRegister_eq hcmd]
    exact write_writtenAt s.cfg h4 hreg
  · simp [writeRegister_eq hcmd, feedsPset_eq h4 hreg, register_eq_iff (r₀ := .frameOffset) h4 hreg rfl,
      Register.offset]

theorem released_of_hostAccess {a : HostAccess} {t : State} (h : hostAccess a s = .next t) :
    s.resetAsserted = false := by
  cases hr : s.resetAsserted with
  | false => rfl
  | true => simp [hostAccess, hr] at h

/-- Settles O14: another offset is another register, or none. -/
theorem configurationWriteFrame : Obligations.ConfigurationWriteFrame := by
  intro s t o data v hb h4 hv ht
  obtain ⟨ho, r, hreg, hctrl, hcmd, hstatus⟩ := register_of_fieldRead h4 hv
  rw [hostAccess_writeRegister (released_of_hostAccess ht) hb ho h4 hreg hctrl hstatus] at ht
  cases ht
  refine ⟨fun o' ho' h4' hne hf => ?_, fun hfeeds => ?_, fun hfeeds => ?_⟩
  · rw [targetAt_low ho']
    obtain hnone | ⟨r', hr', rfl, -⟩ := registerAt_cases o' h4'
    · rw [hnone]
      rfl
    · have hother : r ≠ r' := fun h => hne (h ▸ (offset_of_registerAt h4 hreg).1)
      rw [hr']
      exact congrArg okay (readRegister_writeRegister_other hb hcmd hother hf)
  · simp [writeRegister_eq hcmd, feedsPset_eq h4 hreg, hfeeds]
  · simp [writeRegister_eq hcmd, feedsPset_eq h4 hreg, hfeeds]

/-! ### After a reset -/

/-- After a reset every register past CAPS1 reads 0, but for GRID_START (10_state.md R140). -/
theorem readRegister_doReset (s : State) (h : 0x00C ≤ r.offset) :
    s.doReset.readRegister r = if r.offset = 0x060 then 512#32 else 0#32 := by
  cases r with
  | id | caps0 | caps1 => exact absurd h (by decide)
  | rootTable j =>
    rw [if_neg (by simp only [Register.offset]; omega)]
    simp [State.readRegister, ConfigRegs.reset, nth_fill]
  | symDur j =>
    rw [if_neg (by simp only [Register.offset]; omega)]
    simp [State.readRegister, ConfigRegs.reset, nth_fill]
  | ctrl => exact (by decide : 0#30 ++ bit false ++ 0#1 = 0#32)
  | status => exact statusWord_of_reset rfl rfl
  | fbBase => exact (by decide : fbBaseWord 0#29 = 0#32)
  | qPhase => exact (by decide : 0#23 ++ bit false ++ 0#8 = 0#32)
  | _ => rfl

/-- What a reset leaves; NCS is 0, TD_VALID and ASM_VALID are 0, so the first check of each command that needs a
configuration or a block fails. -/
theorem doReset_afterReset (s : State) (resetAsserted : Bool) (response : Option Response) :
    s.AfterReset { s.doReset with resetAsserted, response } where
  status := statusWord_of_reset rfl rfl
  registers o hlo hhi h4 := by
    rw [targetAt_low hhi]
    obtain hnone | ⟨r, hr, rfl, -⟩ := registerAt_cases o h4
    · have hne : o ≠ 0x060 := by
        rintro rfl
        exact absurd hnone (by decide)
      rw [hnone, if_neg hne]
      rfl
    · rw [hr]
      exact congrArg okay (readRegister_doReset s hlo)
  constants o ho := by
    rw [targetAt_low (by omega)]
    interval_cases o <;> rfl
  idle := rfl
  interrupt := rfl
  writes := ⟨rfl, rfl⟩
  needConfiguration := by
    rintro i (rfl | rfl | rfl) <;> rfl
  needBlock := ⟨rfl, rfl⟩
  memory h := by
    change (if s.issued = 0 then s.mem else _) = s.mem
    rw [if_pos h]
  memoryOutside x hx := by
    rw [State.doReset_mem]
    split
    · rfl
    · exact memRead_spoiledRegion_outside s _ hx

/-- Settles O4: both resets are `doReset`, the line's with the input asserted. -/
theorem resetsGiveTheResetState : Obligations.ResetsGiveTheResetState := by
  refine ⟨fun s data hr hbit => ⟨_, hostAccess_writeAt hr (by decide) (by decide), ?_⟩,
    fun s => ⟨_, rfl, doReset_afterReset s true s.response, rfl⟩⟩
  have hsoft : s.hostWrite (targetAt 0x010) data = s.doReset := by
    change s.hostWrite (.register .ctrl) data = s.doReset
    rw [hostWrite_ctrl, if_pos hbit]
  rw [hsoft]
  exact doReset_afterReset s s.resetAsserted (okay 0#32)

end Sys2Proof.Machine

namespace Sys2Proof.Machine

/-! One step (40_command_control.md R251): the sequencer's turn, or the event at the head of the list. -/

variable {s s' : State}

theorem step_turn (h : s.Turn s') : step s = sequencerTurn s' := by
  obtain ⟨hnone, rfl⟩ | ⟨rest, hhead, rfl⟩ := h
  · exact step_no_event hnone
  · exact step_event hhead

/-- A turn changes only the events to come. -/
theorem sequencer_turn (h : s.Turn s') : s'.sequencer = s.sequencer ∧ s'.resetAsserted = s.resetAsserted := by
  obtain ⟨-, rfl⟩ | ⟨rest, -, rfl⟩ := h <;> exact ⟨rfl, rfl⟩

/-- The placed word is accepted, and the turn is the sequencer's (log 19). -/
theorem withFetchWord_turn (s : State) (w : Half) :
    (s.withFetchWord 32 w.toNat).Turn { s.accept w with resetAsserted := false } := by
  have hw : BitVec.ofNat 32 (w.toNat % 2 ^ 32) = w := by
    rw [Nat.mod_eq_of_lt w.isLt, BitVec.ofNat_toNat, BitVec.setWidth_eq]
  rw [State.withFetchWord, State.fetchWord, hw]
  cases he : s.events with
  | nil => exact .inl ⟨rfl, by simp [State.accept, he]⟩
  | cons e rest => exact .inr ⟨e :: rest, rfl, by simp [State.accept, he]⟩

/-- A write of CMD while not BUSY is the acceptance step (40_command_control.md R250). -/
theorem hostAccess_writeCmd (hr : s.resetAsserted = false) (hb : s.busy = false) (w : Half) :
    hostAccess (writeAt 0x014 w) s = .next { s.accept w with response := okay 0#32 } :=
  hostAccess_writeRegister (r := .cmd) hr hb (by decide) (by decide) rfl nofun nofun

/-- Settles O7. -/
theorem stepRunsTheDecodedCommand : Obligations.StepRunsTheDecodedCommand := by
  refine ⟨fun s s' i st h hr hq => ?_, fun s s' c st h hr hq => ?_, fun s s' h hstill => ?_, fun s w i hw => ?_,
    fun s w i hw hr hb he => ?_, fun s rest => ⟨?_, ?_, ?_, ?_⟩⟩
  · obtain ⟨hq', hr'⟩ := sequencer_turn h
    rw [step_turn h, sequencerTurn_command (hr'.trans hr) (hq'.trans hq)]
  · obtain ⟨hq', hr'⟩ := sequencer_turn h
    rw [step_turn h, sequencerTurn_illegal (hr'.trans hr) (hq'.trans hq)]
  · obtain ⟨hq', hr'⟩ := sequencer_turn h
    rw [step_turn h]
    obtain hb | hr := hstill
    · exact sequencerTurn_idle (hq'.trans (busy_eq_false_iff.1 hb))
    · exact sequencerTurn_inReset (hr'.trans hr)
  · rw [step_turn (withFetchWord_turn s w)]
    exact sequencerTurn_command rfl (congrArg (Sequencer.busy · .start) hw)
  · refine ⟨_, ?_, rfl, ?_⟩
    · rw [step_event he]
      exact hostAccess_writeCmd (s := { s with events := [] }) hr hb w
    · rw [step_no_event rfl]
      exact sequencerTurn_command hr (congrArg (Sequencer.busy · .start) hw)
  · exact fun a he => step_event he
  · exact fun addr b he => step_event he
  · exact fun addr he => step_event he
  · exact fun asserted he => step_event he

end Sys2Proof.Machine

namespace Sys2Proof.Machine

/-! The invariant of the machine's states (10_state.md R61 to R68, R140). A step is an event from outside or the
sequencer's turn. What the invariant says of the buffers' flags and of frame memory (`State.Sound`) and of the running
command (`State.Running`) is kept by every piece of a command; where the sequencer stands is settled once for each way a
command can go on: it completes, it waits for the engine, or it waits for frame memory. -/

variable {s : State} {i : Instr}

/-! ### The parts of the invariant that do not speak of the sequencer -/

/-- Frame memory, the assembled block and the preamble set are as the invariant says. -/
structure State.Sound (s : State) : Prop where
  memory : s.mem.wf = true
  block : s.BlockOk
  pset : s.PsetOk

/-- Command `i` has been accepted and has not completed: all of the invariant but where in `i` the sequencer stands. -/
structure State.Running (s : State) (i : Instr) : Prop extends s.Sound where
  decoded : decode s.cmd = .command i
  opcode : s.status.lastOpc = s.cmd.extractLsb' 0 8
  notDone : s.status.done = false
  record : s.RecordOk
  frameFlag : isFrameCommand (.command i) = true → s.status.frameValid = false
  released : s.resetAsserted = false

theorem State.Inv.sound (h : s.Inv) : s.Sound := ⟨h.memory, h.block, h.pset⟩

theorem State.Inv.runningAs (h : s.Inv) {st : Stage} (hr : s.resetAsserted = false)
    (hq : s.sequencer = .busy (.command i) st) : s.Running i := by
  obtain ⟨hdec, hopc, hdone⟩ := h.running _ _ hq
  refine { h.sound with
    decoded := hdec.symm, opcode := hopc, notDone := hdone, record := h.record, released := hr
    frameFlag := fun hi => h.frameFlag ?_ }
  rw [State.frameInProgress, hq]
  exact hi

/-- Only TRANSFORM and GENERATE hold the engine port (10_state.md R68). -/
theorem State.Inv.engHeld_eq_false (h : s.Inv) {st : Stage} (hq : s.sequencer = .busy (.command i) st)
    (ht : i ≠ .transform) (hg : i ≠ .generate) : s.status.engHeld = false := by
  have hstage := h.stage
  rw [State.StageOk, hq] at hstage
  cases st with
  | start => exact hstage.1
  | frame => exact hstage.1
  | engine =>
    obtain ⟨-, -, -, -, -, hc⟩ := hstage
    simp [ht, hg] at hc

/-- PSET stays current as long as the configuration it was computed from does (10_state.md R64). -/
theorem State.PsetOk.of_same_config {t : State} (h : s.PsetOk) (hncs : t.cfg.ncs = s.cfg.ncs)
    (hroots : t.cfg.rootTable = s.cfg.rootTable) (hpset : t.pset = s.pset)
    (hvalid : t.status.psetValid = true → s.status.psetValid = true) : t.PsetOk := by
  have hopNcs : t.opNcs = s.opNcs := congrArg BitVec.toNat hncs
  have hchecks : t.configChecks = s.configChecks := by rw [State.configChecks, hopNcs, State.configChecks]
  have hdef (j k : Nat) : t.psetDef j k = s.psetDef j k := by
    simp only [State.psetDef, State.opRt, hopNcs, hroots]
  intro hv
  rw [hchecks, hpset]
  simpa only [hdef] using h (hvalid hv)

/-- The invariant does not speak of IRQ_EN, GRID, the outside or the model's count of draws. -/
theorem State.Inv.update_unseen (h : s.Inv) {irqEn : Bool} {grid : Vector Sample Config.gridSize}
    {events : List Event} {response : Option Response} {agentResponse : Option Byte} {draws : Nat} :
    State.Inv { s with irqEn, grid, events, response, agentResponse, draws } :=
  ⟨h.memory, h.running, h.stage, h.block, h.pset, h.record, h.frameFlag, h.inReset⟩

/-! ### A reset and a completion -/

/-- While IDLE the invariant speaks of no command (10_state.md R135). -/
theorem inv_of_idle (hq : s.sequencer = .idle) (h : s.Sound) (he : s.status.engHeld = false)
    (hw : s.issued = 0 ∧ s.outstanding = 0) (hrecord : s.RecordOk) : s.Inv where
  memory := h.memory
  running := by simp [State.RunningOk, hq]
  stage := by rw [State.StageOk, hq]; exact ⟨he, hw⟩
  block := h.block
  pset := h.pset
  record := hrecord
  frameFlag := by simp [State.FrameFlagOk, State.frameInProgress, hq]
  inReset := fun _ => hq

theorem reset_inv : State.reset.Inv := inv_of_idle rfl ⟨rfl, nofun, nofun⟩ rfl ⟨rfl, rfl⟩ ⟨.none, rfl, rfl⟩

/-- The reset values meet the invariant, whatever the buffers and the outside are. -/
theorem doReset_inv (h : s.mem.wf = true) : s.doReset.Inv := by
  refine inv_of_idle rfl ⟨?_, nofun, nofun⟩ rfl ⟨rfl, rfl⟩ ⟨.none, rfl, rfl⟩
  rw [State.doReset_mem]
  split
  · exact h
  · exact wf_spoiledRegion h _

/-- A completion, with an error or without, frees the sequencer and writes a row of the error table
(40_command_control.md R256). -/
theorem State.Sound.complete_inv (h : s.Sound) (he : s.status.engHeld = false) (e : Err) : (s.complete e).Inv :=
  inv_of_idle rfl ⟨h.memory, h.block, h.pset⟩ he ⟨rfl, rfl⟩ ⟨e, rfl, rfl⟩

/-- A body behind checks: a failing check completes the command with nothing else changed. -/
theorem State.Sound.checked_inv (h : s.Sound) (he : s.status.engHeld = false) {checks : Checks}
    {body : State → Progress} (hb : firstError checks = none → (body s).finish.Inv) :
    (s.checked checks body).finish.Inv := by
  cases hc : firstError checks with
  | some e => simpa only [checked_of_error hc, finish_failed] using h.complete_inv he e
  | none => simpa only [checked_of_pass hc] using hb hc

/-! ### What the commands store -/

/-- The block latched is one that BUILD_BLOCK's checks let pass, and TD holds it (44_preamble_assembler.md R450). -/
theorem latchBlock_blockOk (hchecks : firstError s.blockChecks = none) (htd : s.status.tdValid = true) :
    s.latchBlock.BlockOk := by
  intro _
  rw [firstError_blockChecks] at hchecks
  split_ifs at hchecks with hcp hrep
  obtain ⟨hcp', hrep', hlen⟩ := latchBlock_values (s := s) (by omega) (by omega)
  have hmax : s.cfg.repeatCount.toInt < 2 ^ 15 := by simpa using BitVec.toInt_lt (x := s.cfg.repeatCount)
  exact ⟨htd, by omega, by omega, by omega, by omega⟩

/-- PSET filled is PSETdef of the configuration the check let pass (41_sequence_generator.md R320). -/
theorem fillPset_psetOk (hchecks : firstError s.configChecks = none) : s.fillPset.PsetOk :=
  fun _ => ⟨hchecks, fun _ hi _ hk => psetWord_fill _ hi hk⟩

theorem State.Sound.setSample (h : s.Sound) (n : Nat) : (s.setSample n).Sound := ⟨h.memory, h.block, h.pset⟩

theorem State.Sound.setCoef (h : s.Sound) (w : Sample) : (s.setCoef w).Sound := ⟨h.memory, h.block, h.pset⟩

theorem State.Sound.fillPset (h : s.Sound) (hc : firstError s.configChecks = none) : s.fillPset.Sound :=
  ⟨h.memory, h.block, fillPset_psetOk hc⟩

theorem State.Sound.writeGrid (h : s.Sound) : s.writeGrid.Sound := ⟨h.memory, h.block, h.pset⟩

theorem State.Sound.swapGrid (h : s.Sound) : s.swapGrid.Sound := ⟨h.memory, h.block, h.pset⟩

theorem State.Sound.latchBlock (h : s.Sound) (hchecks : firstError s.blockChecks = none)
    (htd : s.status.tdValid = true) : s.latchBlock.Sound :=
  ⟨h.memory, latchBlock_blockOk hchecks htd, h.pset⟩

theorem State.Sound.storeOffset (h : s.Sound) : s.storeOffset.Sound := ⟨h.memory, h.block, h.pset⟩

/-! ### The frame stage -/

/-- The checks before the frame stage have passed, in the command `i` that runs it (40_command_control.md R257). -/
def State.PassedFrameChecks (s : State) (i : Instr) : Prop :=
  (i = .placeFrame ∧ firstError s.placeFrameChecks = none) ∨ (i = .generate ∧ firstError s.generateChecks = none)

theorem frameChecks_passed {off len : Int} (h : firstError (s.frameChecks off len) = none) :
    off + len ≤ s.opFlen ∧ s.opFb + 8 * s.opFlen ≤ addrLimit := by
  rw [State.frameChecks, firstError_cons_decide, firstError_cons_decide] at h
  split_ifs at h
  omega

theorem placeFrameChecks_passed (h : firstError s.placeFrameChecks = none) :
    s.status.asmValid = true ∧ 0 ≤ s.opOff ∧
      firstError (s.frameChecks s.opOff s.results.asmLen.toNat) = none := by
  rw [State.placeFrameChecks, firstError_append_eq_none, firstError_cons, firstError_cons_decide] at h
  obtain ⟨hblock, hframe⟩ := h
  split_ifs at hblock with ha hoff
  exact ⟨by simpa using ha, not_lt.1 hoff, hframe⟩

theorem generateChecks_passed (h : firstError s.generateChecks = none) :
    firstError s.configChecks = none ∧ firstError s.blockChecks = none ∧
      firstError (s.frameChecks s.opOffset s.opAlen) = none := by
  simp only [State.generateChecks, firstError_append_eq_none] at h
  obtain ⟨⟨⟨⟨⟨-, hconfig⟩, -⟩, hblock⟩, -⟩, hframe⟩ := h
  exact ⟨hconfig, hblock, hframe⟩

/-- The frame that passed its checks has a word, since the block has at least 1024, and fits below 2^32. -/
theorem State.PassedFrameChecks.frame_fits (hp : s.PassedFrameChecks i) (hb : s.BlockOk)
    (ha : s.status.asmValid = true) : 0 < s.opFlen ∧ s.opFb + 8 * s.opFlen ≤ addrLimit := by
  obtain ⟨-, hp⟩ | ⟨-, hp⟩ := hp
  · obtain ⟨-, -, hrep, -, hlen⟩ := hb ha
    obtain ⟨-, hoff, hframe⟩ := placeFrameChecks_passed hp
    obtain ⟨hend, hfit⟩ := frameChecks_passed hframe
    omega
  · obtain ⟨-, hblock, hframe⟩ := generateChecks_passed hp
    obtain ⟨hend, hfit⟩ := frameChecks_passed hframe
    rw [firstError_blockChecks] at hblock
    split_ifs at hblock with _ hrep
    have halen : s.opAlen = s.cfg.cpLen.toNat + s.cfg.repeatCount.toInt * 1024 := rfl
    omega

theorem State.Sound.frameDone (h : s.Sound) (hfit : s.opFb + 8 * s.opFlen ≤ addrLimit) (off : Int) :
    (s.frameDone off).Sound :=
  ⟨wf_frameMem h.memory hfit off _, h.block, h.pset⟩

theorem State.Sound.framePartial (h : s.Sound) (hfit : s.opFb + 8 * s.opFlen ≤ addrLimit) (off : Int)
    (good : Nat) : (s.framePartial off good).Sound :=
  ⟨wf_frameMem h.memory hfit off good, h.block, h.pset⟩

/-- A wait in the frame stage: no more writes are outstanding than issued, and no more issued than the frame has
(20_memory.md R176). -/
theorem State.Running.frameWait_inv (h : s.Running i) (he : s.status.engHeld = false)
    (ha : s.status.asmValid = true) (hp : s.PassedFrameChecks i) {n o : Nat} (hn : n ≤ s.opFlen) (ho : o ≤ n) :
    (s.frameWait i n o).Inv where
  memory := by
    rw [State.frameWait_mem]
    split
    · exact h.memory
    · exact wf_spoiledRegion h.memory _
  running := by
    rintro c st ⟨⟩
    exact ⟨h.decoded.symm, h.opcode, h.notDone⟩
  stage := ⟨he, ha, ho, hn, hp.imp (And.imp_left (congrArg _)) (And.imp_left (congrArg _))⟩
  block := h.block
  pset := h.pset
  record := h.record
  frameFlag := h.frameFlag
  inReset := fun hr => absurd hr (by simp [h.released])

theorem State.Running.frameStage_inv (h : s.Running i) (he : s.status.engHeld = false)
    (ha : s.status.asmValid = true) (hp : s.PassedFrameChecks i) (hi : s.issued ≤ s.opFlen) (off : Int) :
    (s.frameStage i off).finish.Inv := by
  obtain ⟨hpos, hfit⟩ := hp.frame_fits h.block ha
  obtain ⟨l, d, hdone | ⟨je, -, herror⟩ | ⟨n, o, hwait, hge, hle, ho, ho'⟩⟩ := frameStage_cases i off s
  all_goals have ht : State.Running { s with frameAnswers := l, draws := d } i := { h with }
  · rw [hdone]
    exact (ht.toSound.frameDone hfit off).complete_inv he _
  · rw [herror]
    exact (ht.toSound.framePartial hfit off je).complete_inv he _
  · rw [hwait]
    exact ht.frameWait_inv he ha hp (by change n ≤ s.opFlen; omega) (by omega)

/-! ### The transform stage -/

/-- The engine port is held and TD is not a block (43_transform_interface.md R410). -/
structure State.Invoking (s : State) : Prop where
  held : s.status.engHeld = true
  noTd : s.status.tdValid = false
  noBlock : s.status.asmValid = false
  notIssued : s.issued = 0
  noneOutstanding : s.outstanding = 0

theorem State.Sound.releaseSpoiled (h : s.Sound) : s.release.spoilBlock.Sound := ⟨h.memory, h.block, h.pset⟩

theorem State.Sound.releaseStored (h : s.Sound) (ha : s.status.asmValid = false) : s.release.storeBlock.Sound :=
  ⟨h.memory, fun hv => absurd hv (by simp [ha]), h.pset⟩

theorem andThen_progressDone (p : Progress) : p.andThen .done = p := by
  cases p <;> rfl

/-- A wait in the transform stage, of TRANSFORM or of a GENERATE past its checks (10_state.md R68). -/
theorem State.Running.waitAt_engine_inv (h : s.Running i) (hv : s.Invoking)
    (hi : i = .transform ∨ (i = .generate ∧ firstError s.generateChecks = none)) : (s.waitAt i .engine).Inv where
  memory := h.memory
  running := by
    rintro c st ⟨⟩
    exact ⟨h.decoded.symm, h.opcode, h.notDone⟩
  stage := ⟨hv.held, hv.noTd, hv.noBlock, hv.notIssued, hv.noneOutstanding,
    hi.imp (congrArg _) (And.imp_left (congrArg _))⟩
  block := h.block
  pset := h.pset
  record := h.record
  frameFlag := h.frameFlag
  inReset := fun hr => absurd hr (by simp [h.released])

/-- The transform stage, followed by `k` once the engine has answered with a block. -/
theorem State.Running.transformAnswer_inv (h : s.Running i) (hv : s.Invoking)
    (hi : i = .transform ∨ (i = .generate ∧ firstError s.generateChecks = none)) {k : State → Progress}
    (hk : ∀ l d, (k (State.storeBlock (State.release { s with engine := l, draws := d }))).finish.Inv) :
    ((s.transformAnswer i).andThen k).finish.Inv := by
  obtain ⟨l, d, hdone | hfail | hwait⟩ := transformAnswer_cases i s
  all_goals have ht : State.Running { s with engine := l, draws := d } i := { h with }
  · rw [hdone]
    exact hk l d
  · rw [hfail]
    exact ht.toSound.releaseSpoiled.complete_inv rfl _
  · rw [hwait]
    exact ht.waitAt_engine_inv { hv with } hi

/-! ### The commands -/

theorem State.Running.transform_inv (h : s.Running .transform) (hv : s.Invoking) :
    (s.transformAnswer .transform).finish.Inv := by
  rw [← andThen_progressDone (s.transformAnswer .transform)]
  refine h.transformAnswer_inv hv (.inl rfl) fun l d => ?_
  have ht : State.Running { s with engine := l, draws := d } .transform := { h with }
  exact (ht.toSound.releaseStored hv.noBlock).complete_inv rfl _

theorem State.Running.generateFrame_inv (h : s.Running .generate) (he : s.status.engHeld = false)
    (ha : s.status.asmValid = true) (hc : firstError s.generateChecks = none) (hi : s.issued ≤ s.opFlen) :
    s.generateFrame.finish.Inv :=
  h.frameStage_inv he ha (.inr ⟨rfl, hc⟩) hi _

/-- GENERATE from the engine's answer on: a block is latched from the operands its checks let pass. -/
theorem State.Running.generateAnswer_inv (h : s.Running .generate) (hv : s.Invoking)
    (hc : firstError s.generateChecks = none) : s.generateAnswer.finish.Inv := by
  refine h.transformAnswer_inv hv (.inr ⟨rfl, hc⟩) fun l d => ?_
  obtain ⟨-, hblock, -⟩ := generateChecks_passed hc
  have hb : State.BlockOk (State.latchBlock (State.storeBlock (State.release { s with engine := l, draws := d }))) :=
    latchBlock_blockOk hblock rfl
  have ht : State.Running (State.storeOffset (State.latchBlock (State.storeBlock (State.release
      { s with engine := l, draws := d })))) .generate := { h with block := hb }
  exact ht.generateFrame_inv rfl rfl hc (hv.notIssued.trans_le (Nat.zero_le _))

/-- The commands that wait for nobody complete, whatever the sequencer's position. -/
theorem State.Sound.exec_inv (h : s.Sound) (he : s.status.engHeld = false) (ht : i ≠ .transform)
    (hp : i ≠ .placeFrame) (hg : i ≠ .generate) : ∃ t, exec i s = .next t ∧ t.Inv := by
  cases i with
  | nop => exact ⟨_, rfl, h.complete_inv he _⟩
  | rootSample => exact ⟨_, rfl, (h.setSample _).complete_inv he _⟩
  | csSample => exact ⟨_, rfl, h.checked_inv he fun _ => (h.setSample _).complete_inv he _⟩
  | dftCoef => exact ⟨_, rfl, h.checked_inv he fun _ => (h.setCoef _).complete_inv he _⟩
  | genSet => exact ⟨_, rfl, h.checked_inv he fun hc => (h.fillPset hc).complete_inv he _⟩
  | placeGrid => exact ⟨_, rfl, h.checked_inv he fun _ => h.writeGrid.complete_inv he _⟩
  | reorder => exact ⟨_, rfl, h.swapGrid.complete_inv he _⟩
  | buildBlock =>
    refine ⟨_, rfl, h.checked_inv he fun hc => ?_⟩
    obtain ⟨htd, hblock⟩ := firstError_append_eq_none.1 hc
    have htd' : s.status.tdValid = true := by simpa [State.tdChecks] using htd
    exact (h.latchBlock hblock htd').complete_inv he _
  | computeOffset => exact ⟨_, rfl, h.checked_inv he fun _ => h.storeOffset.complete_inv he _⟩
  | transform => exact absurd rfl ht
  | placeFrame => exact absurd rfl hp
  | generate => exact absurd rfl hg

theorem State.Inv.execTransform_inv (h : s.Inv) {st : Stage} (hr : s.resetAsserted = false)
    (hq : s.sequencer = .busy (.command .transform) st) : ∃ t, exec .transform s = .next t ∧ t.Inv := by
  have hrun := h.runningAs hr hq
  have hstage := h.stage
  rw [State.StageOk, hq] at hstage
  simp only [exec, execTransform, State.stage, hq]
  cases st with
  | start =>
    obtain ⟨-, hi, ho⟩ := hstage
    have hbegun : s.transformBegin.Running .transform := { hrun with block := nofun }
    exact ⟨_, rfl, hbegun.transform_inv ⟨rfl, rfl, rfl, hi, ho⟩⟩
  | engine =>
    obtain ⟨he, htd, ha, hi, ho, -⟩ := hstage
    exact ⟨_, rfl, hrun.transform_inv ⟨he, htd, ha, hi, ho⟩⟩
  | frame =>
    obtain ⟨-, -, -, -, hc⟩ := hstage
    simp at hc

theorem State.Inv.execPlaceFrame_inv (h : s.Inv) {st : Stage} (hr : s.resetAsserted = false)
    (hq : s.sequencer = .busy (.command .placeFrame) st) : ∃ t, exec .placeFrame s = .next t ∧ t.Inv := by
  have hrun := h.runningAs hr hq
  have hstage := h.stage
  rw [State.StageOk, hq] at hstage
  simp only [exec, execPlaceFrame, State.stage, hq]
  cases st with
  | start =>
    obtain ⟨he, hi, -⟩ := hstage
    refine ⟨_, rfl, h.sound.checked_inv he fun hc => ?_⟩
    obtain ⟨ha, -⟩ := placeFrameChecks_passed hc
    exact hrun.frameStage_inv he ha (.inl ⟨rfl, hc⟩) (hi.trans_le (Nat.zero_le _)) _
  | engine =>
    obtain ⟨-, -, -, -, -, hc⟩ := hstage
    simp at hc
  | frame =>
    obtain ⟨he, ha, -, hi, hc⟩ := hstage
    exact ⟨_, rfl, hrun.frameStage_inv he ha (by simpa [State.PassedFrameChecks] using hc) hi _⟩

theorem State.Inv.execGenerate_inv (h : s.Inv) {st : Stage} (hr : s.resetAsserted = false)
    (hq : s.sequencer = .busy (.command .generate) st) : ∃ t, exec .generate s = .next t ∧ t.Inv := by
  have hrun := h.runningAs hr hq
  have hstage := h.stage
  rw [State.StageOk, hq] at hstage
  simp only [exec, execGenerate, State.stage, hq]
  cases st with
  | start =>
    obtain ⟨he, hi, ho⟩ := hstage
    refine ⟨_, rfl, h.sound.checked_inv he fun hc => ?_⟩
    have hbegun : s.writeGrid.swapGrid.transformBegin.Running .generate := { hrun with block := nofun }
    exact hbegun.generateAnswer_inv ⟨rfl, rfl, rfl, hi, ho⟩ hc
  | engine =>
    obtain ⟨he, htd, ha, hi, ho, hc⟩ := hstage
    exact ⟨_, rfl, hrun.generateAnswer_inv ⟨he, htd, ha, hi, ho⟩ (by simpa using hc)⟩
  | frame =>
    obtain ⟨he, ha, -, hi, hc⟩ := hstage
    exact ⟨_, rfl, hrun.generateFrame_inv he ha (by simpa using hc) hi⟩

theorem State.Inv.exec_inv (h : s.Inv) {st : Stage} (hr : s.resetAsserted = false)
    (hq : s.sequencer = .busy (.command i) st) : ∃ t, exec i s = .next t ∧ t.Inv := by
  by_cases ht : i = .transform
  · exact ht ▸ h.execTransform_inv hr (ht ▸ hq)
  by_cases hp : i = .placeFrame
  · exact hp ▸ h.execPlaceFrame_inv hr (hp ▸ hq)
  by_cases hg : i = .generate
  · exact hg ▸ h.execGenerate_inv hr (hg ▸ hq)
  exact h.sound.exec_inv (h.engHeld_eq_false hq ht hg) ht hp hg

theorem State.Inv.sequencerTurn_inv (h : s.Inv) : ∃ t, sequencerTurn s = .next t ∧ t.Inv := by
  obtain hturn | ⟨c, st, hr, hq, hturn⟩ | ⟨i, st, hr, hq, hturn⟩ := sequencerTurn_cases s <;> rw [hturn]
  · exact ⟨s, rfl, h⟩
  · refine ⟨_, rfl, h.sound.complete_inv ?_ _⟩
    have hstage := h.stage
    rw [State.StageOk, hq] at hstage
    cases st with
    | start => exact hstage.1
    | engine => simp at hstage
    | frame => simp at hstage
  · exact h.exec_inv hr hq

/-! ### The outside -/

/-- A configuration write clears PSET_VALID where PSET would no longer be current (10_state.md R64). -/
theorem writeConfig_psetOk (h : s.PsetOk) (r : Register) (data : Half) : State.PsetOk { s with
    cfg := s.cfg.write r data
    status := { s.status with psetValid := s.status.psetValid && !r.feedsPset } } := by
  by_cases hr : r.feedsPset = true
  · intro hv
    simp [hr] at hv
  · apply h.of_same_config
    · cases r with
      | ncs => exact absurd rfl hr
      | _ => rfl
    · cases r with
      | rootTable j => exact absurd rfl hr
      | _ => rfl
    · rfl
    · simp +contextual

/-- Acceptance starts a command: LAST_OPC and DONE are its own, and FRAME_VALID is 0 for a frame command
(40_command_control.md R250). -/
theorem State.Inv.accept_inv (h : s.Inv) (hr : s.resetAsserted = false) (hq : s.sequencer = .idle) (w : Half) :
    (s.accept w).Inv where
  memory := h.memory
  running := by
    rintro c st ⟨⟩
    exact ⟨rfl, rfl, rfl⟩
  stage := by
    have hstage := h.stage
    rw [State.StageOk, hq] at hstage
    exact hstage
  block := h.block
  pset := h.pset
  record := h.record
  frameFlag := by
    intro hf
    have hf' : isFrameCommand (decode w) = true := hf
    simp [hf']
  inReset := fun hr' => absurd hr' (by simp [hr])

/-- While IDLE a register write issues a command, or stores a field. -/
theorem State.Inv.writeRegister_inv (h : s.Inv) (hr : s.resetAsserted = false) (hq : s.sequencer = .idle)
    (r : Register) (data : Half) : (s.writeRegister r data).Inv := by
  have hstage := h.stage
  rw [State.StageOk, hq] at hstage
  obtain ⟨he, hw⟩ := hstage
  unfold State.writeRegister
  split
  · exact h.accept_inv hr hq data
  · exact inv_of_idle hq ⟨h.memory, h.block, h.pset⟩ he hw h.record
  · exact inv_of_idle hq ⟨h.memory, h.block, writeConfig_psetOk h.pset _ data⟩ he hw h.record

/-- A write that reaches only the W1C bits and WBUSY: DONE may fall and does not rise. -/
theorem State.Inv.update_w1c (h : s.Inv) {done wbusy : Bool} (hd : s.status.done = false → done = false) :
    State.Inv { s with status := { s.status with done, wbusy } } where
  memory := h.memory
  running := fun c st hq => by
    obtain ⟨hdec, hopc, hdone⟩ := h.running c st hq
    exact ⟨hdec, hopc, hd hdone⟩
  stage := h.stage
  block := h.block
  pset := h.pset
  record := h.record
  frameFlag := h.frameFlag
  inReset := h.inReset

theorem State.Inv.dropWrite_inv (h : s.Inv) : s.dropWrite.Inv := h.update_w1c id

theorem State.Inv.hostWrite_inv (h : s.Inv) (hr : s.resetAsserted = false) (t : Target) (data : Half) :
    (s.hostWrite t data).Inv := by
  by_cases hc : t = .register .ctrl
  · subst hc
    rw [hostWrite_ctrl]
    split
    · exact doReset_inv h.memory
    · exact h.update_unseen
  by_cases hs : t = .register .status
  · subst hs
    exact h.update_w1c fun hd => by simp [hd]
  cases hb : s.busy with
  | true =>
    rw [hostWrite_busy hb hc hs]
    exact h.dropWrite_inv
  | false =>
    cases t with
    | register r =>
      rw [hostWrite_register hb (by simpa using hc) (by simpa using hs)]
      exact h.writeRegister_inv hr (busy_eq_false_iff.1 hb) r data
    | grid j k =>
      rw [hostWrite_grid hb]
      exact h.update_unseen
    | _ =>
      rw [hostWrite_ignored hb rfl]
      exact h

theorem State.Inv.hostRead_inv (h : s.Inv) (t : Target) : (s.hostRead t).Inv := by
  unfold State.hostRead
  split
  · exact h.update_unseen
  · exact h.update_unseen
  · split
    · exact h.update_unseen
    · exact h.update_unseen

theorem State.Inv.hostAccess_inv (h : s.Inv) {a : HostAccess} {t : State} (ha : hostAccess a s = .next t) : t.Inv := by
  unfold hostAccess at ha
  split_ifs at ha with hr hw
  · cases ha
    exact h.update_unseen
  · split at ha
    · cases ha
      exact h.hostRead_inv _
    · cases ha
      exact (h.hostWrite_inv (by simpa using hr) _ _).update_unseen

theorem State.Inv.update_mem (h : s.Inv) {mem : Memory} {raced : Bool} {draws : Nat} (hm : mem.wf = true) :
    State.Inv { s with mem, raced, draws } :=
  ⟨hm, h.running, h.stage, h.block, h.pset, h.record, h.frameFlag, h.inReset⟩

theorem State.Inv.agentWrite_inv (h : s.Inv) {addr : Addr} {b : Byte} {t : State}
    (ha : agentWrite addr b s = .next t) : t.Inv := by
  unfold agentWrite at ha
  split at ha
  · cases ha
    exact h.update_mem (wf_spoiledRegion h.memory _)
  · cases ha
    exact h.update_mem (wf_writeByte h.memory addr.isLt)

theorem State.Inv.agentRead_inv (h : s.Inv) {addr : Addr} {t : State} (ha : agentRead addr s = .next t) :
    t.Inv := by
  unfold agentRead at ha
  split at ha
  · cases ha
    exact h.update_unseen
  · split at ha
    · cases ha
      exact h.update_unseen
    · cases ha

theorem State.Inv.resetLine_inv (h : s.Inv) (asserted : Bool) {t : State} (ha : resetLine asserted s = .next t) :
    t.Inv := by
  cases asserted with
  | true =>
    cases ha
    have hreset : s.doReset.Inv := doReset_inv h.memory
    exact { hreset with inReset := fun _ => rfl }
  | false =>
    cases ha
    exact { h with inReset := nofun }

theorem State.Inv.handle_inv (h : s.Inv) (e : Event) {t : State} (he : handle e s = .next t) : t.Inv := by
  cases e with
  | host a => exact h.hostAccess_inv he
  | agentWrite addr b => exact h.agentWrite_inv he
  | agentRead addr => exact h.agentRead_inv he
  | resetLine asserted => exact h.resetLine_inv asserted he
  | sequencer =>
    obtain ⟨u, hu, hinv⟩ := h.sequencerTurn_inv
    cases hu.symm.trans he
    exact hinv

/-- Settles O5: after reset the machine is idle, every flag is 0, and frame memory is empty. -/
theorem resetSatisfiesTheInvariant : Obligations.ResetSatisfiesTheInvariant := reset_inv

/-- Settles O6: the event at the head of the list keeps the invariant, and so does the sequencer's turn. -/
theorem stepKeepsTheInvariant : Obligations.StepKeepsTheInvariant := by
  intro s t h hstep
  cases he : s.events with
  | nil =>
    rw [step_no_event he] at hstep
    exact h.handle_inv .sequencer hstep
  | cons e rest =>
    rw [step_event he] at hstep
    exact (State.Inv.update_unseen h).handle_inv e hstep

end Sys2Proof.Machine

namespace Sys2Proof.Machine

/-! What each command changes (10_state.md R128, R130 to R132). The parts of the state that some command writes are
named once; each piece of a command changes a list of them and keeps the rest, and a command changes what its pieces
do. -/

variable {s t u : State} {i : Instr}

/-! ### The parts of the state -/

/-- The parts of the state that some command writes, a flag together with what it speaks of. -/
inductive Part where
  | pset | grid | engine | block | latches | offset | query | frame

/-- The part is the same in both states. -/
def State.Same (s t : State) : Part → Prop
  | .pset => (t.pset, t.status.psetValid) = (s.pset, s.status.psetValid)
  | .grid => t.grid = s.grid
  | .engine => (t.td, t.status.tdValid, t.status.engHeld, t.engine) =
      (s.td, s.status.tdValid, s.status.engHeld, s.engine)
  | .block => t.status.asmValid = s.status.asmValid
  | .latches => (t.results.asmCp, t.results.asmR, t.results.asmLen) =
      (s.results.asmCp, s.results.asmR, s.results.asmLen)
  | .offset => t.results.frameOffset = s.results.frameOffset
  | .query => (t.results.qRe, t.results.qIm, t.results.qPhase, t.results.qPvalid) =
      (s.results.qRe, s.results.qIm, s.results.qPhase, s.results.qPvalid)
  | .frame => (t.mem, t.status.frameValid, t.frameAnswers) = (s.mem, s.status.frameValid, s.frameAnswers)

/-- What no command writes (10_state.md R128). -/
def State.SameFixed (s t : State) : Prop :=
  (t.cfg, t.irqEn, t.cmd, t.status.lastOpc, t.status.wbusy, t.raced, t.resetAsserted, t.events, t.response,
    t.agentResponse) = (s.cfg, s.irqEn, s.cmd, s.status.lastOpc, s.status.wbusy, s.raced, s.resetAsserted, s.events,
    s.response, s.agentResponse)

/-- From `s` to `t` no more than the parts listed changed, and no byte of frame memory outside the frame region. -/
structure State.Changes (parts : List Part) (s t : State) : Prop where
  fixed : s.SameFixed t
  rest : ∀ p, p ∉ parts → s.Same t p
  outside : ∀ x, s.outsideFrame x → memRead t.mem x = memRead s.mem x

theorem State.SameFixed.cfg_eq (h : s.SameFixed t) : t.cfg = s.cfg := congrArg Prod.fst h

theorem State.Same.trans {p : Part} (h : s.Same t p) (h' : t.Same u p) : s.Same u p := by
  cases p <;> exact Eq.trans h' h

theorem State.Changes.trans {ps : List Part} (h : s.Changes ps t) (h' : t.Changes ps u) : s.Changes ps u where
  fixed := Eq.trans h'.fixed h.fixed
  rest p hp := (h.rest p hp).trans (h'.rest p hp)
  outside x hx := by
    have hx' : t.outsideFrame x := by simpa only [State.outsideFrame, State.opFb, h.fixed.cfg_eq] using hx
    rw [h'.outside x hx', h.outside x hx]

theorem State.Changes.mono {ps qs : List Part} (h : s.Changes ps t) (hsub : ps ⊆ qs) : s.Changes qs t :=
  ⟨h.fixed, fun p hp => h.rest p fun hm => hp (hsub hm), h.outside⟩

theorem State.Changes.refl {ps : List Part} (s : State) : s.Changes ps s :=
  ⟨rfl, fun p _ => by cases p <;> rfl, fun _ _ => rfl⟩

/-! ### The pieces of the commands -/

/-- A completion writes the record alone, which is no part. -/
theorem State.Changes.complete {ps : List Part} (h : s.Changes ps t) (e : Err) : s.Changes ps (t.complete e) :=
  h.trans ⟨rfl, fun p _ => by cases p <;> rfl, fun _ _ => rfl⟩

theorem setSample_changes (s : State) (n : Nat) : s.Changes [.query] (s.setSample n) :=
  ⟨rfl, fun p hp => by cases p <;> simp [State.Same] at hp ⊢, fun _ _ => rfl⟩

theorem setCoef_changes (s : State) (w : Sample) : s.Changes [.query] (s.setCoef w) :=
  ⟨rfl, fun p hp => by cases p <;> simp [State.Same] at hp ⊢, fun _ _ => rfl⟩

theorem fillPset_changes (s : State) : s.Changes [.pset] s.fillPset :=
  ⟨rfl, fun p hp => by cases p <;> simp [State.Same] at hp ⊢, fun _ _ => rfl⟩

theorem writeGrid_changes (s : State) : s.Changes [.grid] s.writeGrid :=
  ⟨rfl, fun p hp => by cases p <;> simp [State.Same] at hp ⊢, fun _ _ => rfl⟩

theorem swapGrid_changes (s : State) : s.Changes [.grid] s.swapGrid :=
  ⟨rfl, fun p hp => by cases p <;> simp [State.Same] at hp ⊢, fun _ _ => rfl⟩

theorem storeOffset_changes (s : State) : s.Changes [.offset] s.storeOffset :=
  ⟨rfl, fun p hp => by cases p <;> simp [State.Same] at hp ⊢, fun _ _ => rfl⟩

theorem latchBlock_changes (s : State) : s.Changes [.block, .latches] s.latchBlock :=
  ⟨rfl, fun p hp => by cases p <;> simp [State.Same] at hp ⊢, fun _ _ => rfl⟩

theorem transformBegin_changes (s : State) : s.Changes [.engine, .block] s.transformBegin :=
  ⟨rfl, fun p hp => by cases p <;> simp [State.Same] at hp ⊢, fun _ _ => rfl⟩

theorem storeBlock_changes (s : State) (l : List EngineAnswer) (d : Nat) :
    s.Changes [.engine] (State.storeBlock (State.release { s with engine := l, draws := d })) :=
  ⟨rfl, fun p hp => by cases p <;> simp [State.Same] at hp ⊢, fun _ _ => rfl⟩

theorem spoilBlock_changes (s : State) (l : List EngineAnswer) (d : Nat) :
    s.Changes [.engine] (State.spoilBlock (State.release { s with engine := l, draws := d })) :=
  ⟨rfl, fun p hp => by cases p <;> simp [State.Same] at hp ⊢, fun _ _ => rfl⟩

theorem waitAt_changes (s : State) (st : Stage) (l : List EngineAnswer) (d : Nat) :
    s.Changes [.engine] (State.waitAt i st { s with engine := l, draws := d }) :=
  ⟨rfl, fun p hp => by cases p <;> simp [State.Same] at hp ⊢, fun _ _ => rfl⟩

theorem frameMem_outside (s : State) (off : Int) (good : Nat) {x : Nat} (hx : s.outsideFrame x) :
    memRead (s.frameMem off good) x = memRead s.mem x :=
  memRead_writeWords_outside hx

theorem frameDone_changes (s : State) (off : Int) (l : List FrameAnswer) (d : Nat) :
    s.Changes [.frame] (State.frameDone off { s with frameAnswers := l, draws := d }) :=
  ⟨rfl, fun p hp => by cases p <;> simp [State.Same] at hp ⊢, fun _ hx => frameMem_outside _ off _ hx⟩

theorem framePartial_changes (s : State) (off : Int) (good : Nat) (l : List FrameAnswer) (d : Nat) :
    s.Changes [.frame] (State.framePartial off good { s with frameAnswers := l, draws := d }) :=
  ⟨rfl, fun p hp => by cases p <;> simp [State.Same] at hp ⊢, fun _ hx => frameMem_outside _ off good hx⟩

theorem frameWait_changes (s : State) (n o : Nat) (l : List FrameAnswer) (d : Nat) :
    s.Changes [.frame] (State.frameWait i n o { s with frameAnswers := l, draws := d }) := by
  refine ⟨rfl, fun p hp => by cases p <;> simp [State.Same] at hp ⊢, fun x hx => ?_⟩
  rw [State.frameWait_mem]
  split
  · rfl
  · exact memRead_spoiledRegion_outside _ _ hx

/-! ### The stages -/

theorem checked_changes {ps : List Part} {checks : Checks} {body : State → Progress}
    (h : s.Changes ps (body s).finish) : s.Changes ps (s.checked checks body).finish := by
  cases hc : firstError checks with
  | some e => simpa only [checked_of_error hc, finish_failed] using (State.Changes.refl s).complete e
  | none => simpa only [checked_of_pass hc] using h

/-- The transform stage writes its part, and what follows a block from the engine writes its own. -/
theorem transformAnswer_changes (s : State) (i : Instr) {ps : List Part} (hps : .engine ∈ ps)
    {k : State → Progress} (hk : ∀ t : State, t.Changes ps (k t).finish) :
    s.Changes ps ((s.transformAnswer i).andThen k).finish := by
  have hsub : [.engine] ⊆ ps := by simpa using hps
  obtain ⟨l, d, hdone | hfail | hwait⟩ := transformAnswer_cases i s
  · rw [hdone]
    exact ((storeBlock_changes s l d).mono hsub).trans (hk _)
  · rw [hfail]
    exact ((spoilBlock_changes s l d).mono hsub).complete _
  · rw [hwait]
    exact (waitAt_changes s .engine l d).mono hsub

theorem frameStage_changes (s : State) (i : Instr) (off : Int) : s.Changes [.frame] (s.frameStage i off).finish := by
  obtain ⟨l, d, hdone | ⟨je, -, herror⟩ | ⟨n, o, hwait, -⟩⟩ := frameStage_cases i off s
  · rw [hdone]
    exact (frameDone_changes s off l d).complete _
  · rw [herror]
    exact (framePartial_changes s off je l d).complete _
  · rw [hwait]
    exact frameWait_changes s n o l d

/-! ### The commands -/

/-- The commands whose Writes line names the part. -/
def Part.writers : Part → List Instr
  | .pset => [.genSet]
  | .grid => [.placeGrid, .reorder, .generate]
  | .engine => [.transform, .generate]
  | .block => [.transform, .buildBlock, .generate]
  | .latches => [.buildBlock, .generate]
  | .offset => [.computeOffset, .generate]
  | .query => [.rootSample, .csSample, .dftCoef]
  | .frame => [.placeFrame, .generate]

/-- The parts a command may write. -/
def writtenBy (i : Instr) : List Part :=
  [.pset, .grid, .engine, .block, .latches, .offset, .query, .frame].filter fun p => i ∈ p.writers

theorem mem_writtenBy {p : Part} : p ∈ writtenBy i ↔ i ∈ p.writers := by
  cases p <;> simp [writtenBy]

theorem transform_changes (s : State) : s.Changes (writtenBy .transform) (s.transformAnswer .transform).finish := by
  rw [← andThen_progressDone (s.transformAnswer .transform)]
  exact transformAnswer_changes s _ (by simp [writtenBy, Part.writers]) fun t => (State.Changes.refl t).complete .none

theorem generateFrame_changes (s : State) : s.Changes (writtenBy .generate) s.generateFrame.finish :=
  (frameStage_changes s _ _).mono (by simp [writtenBy, Part.writers])

theorem generateAnswer_changes (s : State) : s.Changes (writtenBy .generate) s.generateAnswer.finish := by
  refine transformAnswer_changes s _ (by simp [writtenBy, Part.writers]) fun t => ?_
  have hlatch := (latchBlock_changes t).mono (qs := writtenBy .generate) (by simp [writtenBy, Part.writers])
  have hoffset := (storeOffset_changes t.latchBlock).mono (qs := writtenBy .generate)
    (by simp [writtenBy, Part.writers])
  exact (hlatch.trans hoffset).trans (generateFrame_changes _)

/-- GENERATE up to its wait for the engine. -/
theorem generateBegin_changes (s : State) :
    s.Changes (writtenBy .generate) s.writeGrid.swapGrid.transformBegin := by
  have hwrite := (writeGrid_changes s).mono (qs := writtenBy .generate) (by simp [writtenBy, Part.writers])
  have hswap := (swapGrid_changes s.writeGrid).mono (qs := writtenBy .generate) (by simp [writtenBy, Part.writers])
  have hbegin := (transformBegin_changes s.writeGrid.swapGrid).mono (qs := writtenBy .generate)
    (by simp [writtenBy, Part.writers])
  exact (hwrite.trans hswap).trans hbegin

theorem exec_changes (h : exec i s = .next t) : s.Changes (writtenBy i) t := by
  cases i <;> cases h
  case nop => exact (State.Changes.refl s).complete _
  case rootSample => exact (setSample_changes s _).complete _
  case csSample => exact checked_changes ((setSample_changes s _).complete _)
  case dftCoef => exact checked_changes ((setCoef_changes s _).complete _)
  case genSet => exact checked_changes ((fillPset_changes s).complete _)
  case placeGrid => exact checked_changes ((writeGrid_changes s).complete _)
  case reorder => exact (swapGrid_changes s).complete _
  case buildBlock => exact checked_changes ((latchBlock_changes s).complete _)
  case computeOffset => exact checked_changes ((storeOffset_changes s).complete _)
  case transform =>
    split
    · exact (transformBegin_changes s).trans (transform_changes _)
    · exact transform_changes s
    · exact (transformBegin_changes s).trans (transform_changes _)
  case placeFrame =>
    split
    · exact checked_changes (frameStage_changes s _ _)
    · exact checked_changes (frameStage_changes s _ _)
    · exact frameStage_changes s _ _
  case generate =>
    split
    · exact checked_changes ((generateBegin_changes s).trans (generateAnswer_changes _))
    · exact generateAnswer_changes s
    · exact generateFrame_changes s

/-- Settles O29: the parts that are not in a command's Writes line stay as they were. -/
theorem commandFrames : Obligations.CommandFrames := by
  intro i s t h
  obtain ⟨hfixed, hrest, houtside⟩ := exec_changes h
  have hsame (p : Part) (hp : i ∉ p.writers) : s.Same t p := hrest p (mt mem_writtenBy.1 hp)
  refine ⟨by simpa only [State.SameFixed, Prod.mk.injEq] using hfixed, fun h1 => ?_, fun h1 h2 h3 => ?_,
    fun h1 h2 => ?_, fun h1 h2 h3 => ?_, fun h1 h2 => ?_, fun h1 h2 => ?_, fun h1 h2 h3 => ?_, fun h1 h2 => ?_,
    houtside⟩
  · simpa only [State.Same, Prod.mk.injEq] using hsame .pset (by simp [Part.writers, h1])
  · exact hsame .grid (by simp [Part.writers, h1, h2, h3])
  · simpa only [State.Same, Prod.mk.injEq] using hsame .engine (by simp [Part.writers, h1, h2])
  · exact hsame .block (by simp [Part.writers, h1, h2, h3])
  · simpa only [State.Same, Prod.mk.injEq] using hsame .latches (by simp [Part.writers, h1, h2])
  · exact hsame .offset (by simp [Part.writers, h1, h2])
  · simpa only [State.Same, Prod.mk.injEq] using hsame .query (by simp [Part.writers, h1, h2, h3])
  · simpa only [State.Same, Prod.mk.injEq] using hsame .frame (by simp [Part.writers, h1, h2])

end Sys2Proof.Machine

namespace Sys2Proof.Machine

/-! The host port's address map (20_memory.md R151 to R166): what lies in each range of offsets, what a read of it
returns, and the windows. -/

variable {s : State} {o : Nat} {r : Register} {data : Half} {t : Target}

/-! ### Illegal accesses (R151) -/

theorem wellFormed_iff (a : HostAccess) : a.wellFormed = true ↔ a.width = .w32 ∧ a.offset.toNat % 4 = 0 := by
  cases hw : a.width <;> simp [HostAccess.wellFormed, hw]

/-- Settles O9: such an access is not well formed. -/
theorem illegalAccessGetsTheBusError : Obligations.IllegalAccessGetsTheBusError := by
  intro s a hr hbad
  have hlegal : ¬a.wellFormed = true := by
    rw [wellFormed_iff]
    exact not_and_or.2 hbad
  exact hostAccess_illegal hr (Bool.eq_false_iff.2 hlegal)

/-! ### The map (R160) -/

/-- The map by its ranges: the register block, the reserved ranges, and the four windows. -/
theorem targetAt_cases (o : Nat) :
    (o < 0x200 ∧ targetAt o = registerAt o) ∨
    (((0x200 ≤ o ∧ o < 0x10000) ∨ (0x14000 ≤ o ∧ o < 0x20000) ∨ 0xC0000 ≤ o) ∧ targetAt o = .reserved) ∨
    ((0x10000 ≤ o ∧ o < 0x12000) ∧ ∃ j h, targetAt o = .grid j h) ∨
    ((0x12000 ≤ o ∧ o < 0x14000) ∧ ∃ j h, targetAt o = .td j h) ∨
    ((0x20000 ≤ o ∧ o < 0x40000) ∧ ∃ i k h, targetAt o = .pset i k h) ∨
    ((0x40000 ≤ o ∧ o < 0xC0000) ∧ ∃ i h, targetAt o = .asm i h) := by
  unfold targetAt
  split_ifs with h1 h2 h3 h4 h5 h6 h7
  · exact .inl ⟨h1, rfl⟩
  · exact .inr (.inl ⟨by omega, rfl⟩)
  · exact .inr (.inr (.inl ⟨by omega, _, _, rfl⟩))
  · exact .inr (.inr (.inr (.inl ⟨by omega, _, _, rfl⟩)))
  · exact .inr (.inl ⟨by omega, rfl⟩)
  · exact .inr (.inr (.inr (.inr (.inl ⟨by omega, _, _, _, rfl⟩))))
  · exact .inr (.inr (.inr (.inr (.inr ⟨by omega, _, _, rfl⟩))))
  · exact .inr (.inl ⟨by omega, rfl⟩)

theorem not_reservedOffset_offset (hex : r.Exists) : ¬reservedOffset r.offset := by
  cases r with
  | rootTable j | symDur j =>
    simp only [Register.Exists] at hex
    simp only [Register.offset]
    omega
  | _ => decide

theorem readOnly_of_readOnlyOffset (hex : r.Exists) (h : readOnlyOffset r.offset) : r.readOnly = true := by
  cases r with
  | id | caps0 | caps1 | frameLen | cardV | iLength | gridStart | asmLen | asmCp | asmR | qRe | qIm | qPhase => rfl
  | rootTable j | symDur j =>
    simp only [Register.Exists] at hex
    simp only [Register.offset] at h
    omega
  | _ => exact absurd h (by decide)

theorem targetAt_of_reservedOffset (h4 : o % 4 = 0) (h : reservedOffset o) : targetAt o = .reserved := by
  obtain ⟨-, ht⟩ | ⟨-, ht⟩ | ⟨hrange, -⟩ | ⟨hrange, -⟩ | ⟨hrange, -⟩ | ⟨hrange, -⟩ := targetAt_cases o
  · obtain hnone | ⟨r, -, rfl, hex⟩ := registerAt_cases o h4
    · exact ht.trans hnone
    · exact absurd h (not_reservedOffset_offset hex)
  · exact ht
  all_goals omega

theorem ignoresWrites_of_readOnlyOffset (h4 : o % 4 = 0) (h : readOnlyOffset o) :
    (targetAt o).ignoresWrites = true := by
  obtain ⟨-, ht⟩ | ⟨-, ht⟩ | ⟨hrange, -⟩ | ⟨-, _, _, ht⟩ | ⟨-, _, _, _, ht⟩ | ⟨-, _, _, ht⟩ := targetAt_cases o
  · obtain hnone | ⟨r, hreg, rfl, hex⟩ := registerAt_cases o h4
    · rw [ht, hnone]
      rfl
    · rw [ht, hreg]
      exact readOnly_of_readOnlyOffset hex h
  · rw [ht]
    rfl
  · omega
  all_goals
    rw [ht]
    rfl

/-! ### Reads (R152, R154, R165) -/

/-- The targets whose reads are any value while BUSY (R165). -/
def Target.isWindow : Target → Bool
  | .register _ | .reserved => false
  | .grid _ _ | .td _ _ | .pset _ _ _ | .asm _ _ => true

theorem isWindow_targetAt_low (h4 : o % 4 = 0) (ho : o < 0x10000) : (targetAt o).isWindow = false := by
  obtain ⟨-, ht⟩ | ⟨-, ht⟩ | ⟨hrange, -⟩ | ⟨hrange, -⟩ | ⟨hrange, -⟩ | ⟨hrange, -⟩ := targetAt_cases o
  · obtain hnone | ⟨r, hreg, -⟩ := registerAt_cases o h4
    · rw [ht, hnone]
      rfl
    · rw [ht, hreg]
      rfl
  · rw [ht]
    rfl
  all_goals omega

/-- What a read of a target returns, but for a window's while BUSY: `hostRead_determined`. -/
def State.readValue (s : State) (t : Target) : Half :=
  match t with
  | .register r => s.readRegister r
  | t => s.readWindow t

theorem readValue_with_response (s : State) (t : Target) (a : Option Response) :
    State.readValue { s with response := a } t = s.readValue t := by
  cases t <;> rfl

theorem hostRead_determined (h : s.busy = false ∨ t.isWindow = false) :
    s.hostRead t = { s with response := okay (s.readValue t) } := by
  cases t with
  | register r => rfl
  | reserved => rfl
  | _ =>
    have hb : s.busy = false := h.resolve_right nofun
    simp only [State.hostRead, hb]
    rfl

theorem hostRead_window_busy (hb : s.busy = true) (ht : t.isWindow = true) :
    s.hostRead t = { s with response := okay (Config.anyHalf s.draws), draws := s.draws + 1 } := by
  cases t with
  | register r => cases ht
  | reserved => cases ht
  | _ =>
    simp only [State.hostRead, hb]
    rfl

theorem hostAccess_read_determined (hr : s.resetAsserted = false) (ho : o < 2 ^ 20) (h4 : o % 4 = 0)
    (ht : targetAt o = t) (h : s.busy = false ∨ t.isWindow = false) :
    hostAccess (readAt o) s = .next { s with response := okay (s.readValue t) } := by
  rw [hostAccess_readAt hr ho h4, ht, hostRead_determined h]

/-- Settles O10: nothing lies at a reserved offset, and what lies at a read-only one ignores writes. -/
theorem reservedAndReadOnlyOffsets : Obligations.ReservedAndReadOnlyOffsets := by
  intro s o data hr ho h4
  refine ⟨fun hres => ?_, fun h hb => hostAccess_write_ignored hr hb ho h4 ?_⟩
  · exact hostAccess_read_determined hr ho h4 (targetAt_of_reservedOffset h4 hres) (.inr rfl)
  · obtain hres | hro := h
    · rw [targetAt_of_reservedOffset h4 hres]
      rfl
    · exact ignoresWrites_of_readOnlyOffset h4 hro

/-- Settles O12: only a window read while BUSY draws a value, and no read depends on the answer before it. -/
theorem readsHaveNoSideEffect : Obligations.ReadsHaveNoSideEffect := by
  intro s o hr ho h4
  by_cases h : s.busy = false ∨ (targetAt o).isWindow = false
  · refine ⟨_, _, hostAccess_read_determined hr ho h4 rfl h, rfl, fun _ => ⟨rfl, ?_⟩⟩
    have hagain :=
      hostAccess_read_determined (s := { s with response := okay (s.readValue (targetAt o)) }) hr ho h4 rfl h
    rw [readValue_with_response] at hagain
    exact hagain
  · obtain ⟨hbusy, hwindow⟩ := not_or.1 h
    have hread : s.hostRead (targetAt o) =
        { s with response := okay (Config.anyHalf s.draws), draws := s.draws + 1 } :=
      hostRead_window_busy (Bool.eq_true_of_not_eq_false hbusy) (Bool.eq_true_of_not_eq_false hwindow)
    refine ⟨_, _, hostAccess_readAt hr ho h4, by rw [hread], fun hdet => absurd (hdet.imp_right ?_) h⟩
    exact isWindow_targetAt_low h4

/-! ### The windows (R161 to R164) -/

theorem word_setNth_same {n j : Nat} (v : Vector Sample n) (x : Sample) (hj : j < n) :
    word (setNth zeroSample v j x) j = x := by
  rw [word, nth_setNth, if_pos hj, if_pos rfl]

theorem word_setNth_other {n j j' : Nat} (v : Vector Sample n) (x : Sample) (hj' : j' < n) (hne : j' ≠ j) :
    word (setNth zeroSample v j x) j' = word v j' := by
  rw [word, nth_setNth, if_pos hj', if_neg hne, word]

theorem halfOf_setHalf_complement {h : Nat} (hh : h < 2) (data : Half) (w : Sample) :
    halfOf (1 - h) (setHalf h data w) = halfOf (1 - h) w := by
  obtain rfl | rfl : h = 0 ∨ h = 1 := by omega
  · exact (halfOf_setHalf_other data w).1
  · exact (halfOf_setHalf_other data w).2

/-- Settles O19: a write replaces the word by itself with one half set. -/
theorem gridWindow : Obligations.GridWindow := by
  intro s j h data hr hb hj hh
  have hmap : targetAt (0x10000 + 8 * j + 4 * h) = .grid j h := targetAt_grid hj hh
  constructor
  · rw [hostAccess_read_determined hr (by omega) (by omega) hmap (.inl hb), ← halfOf_eq_extract hh]
    rfl
  · refine ⟨setNth zeroSample s.grid j (setHalf h data (word s.grid j)), ?_, ?_, ?_,
      fun j' hj' hne => word_setNth_other _ _ hj' hne⟩
    · rw [hostAccess_writeAt hr (by omega) (by omega), hmap, hostWrite_grid hb]
      rfl
    · rw [word_setNth_same _ _ hj, ← halfOf_eq_extract hh, halfOf_setHalf_same]
    · have hh' : 1 - h < 2 := by omega
      rw [word_setNth_same _ _ hj, ← halfOf_eq_extract hh', ← halfOf_eq_extract hh', halfOf_setHalf_complement hh]

/-- A read-only window while not BUSY: a read returns its word's half, and a write is ignored. -/
theorem hostAccess_readOnly (hr : s.resetAsserted = false) (hb : s.busy = false) (ho : o < 2 ^ 20) (h4 : o % 4 = 0)
    (ht : targetAt o = t) (hro : t.ignoresWrites = true) (data : Half) :
    hostAccess (readAt o) s = .next { s with response := okay (s.readValue t) } ∧
      hostAccess (writeAt o data) s = .next { s with response := okay 0#32 } :=
  ⟨hostAccess_read_determined hr ho h4 ht (.inl hb), hostAccess_write_ignored hr hb ho h4 (ht ▸ hro)⟩

/-- Settles O20: the PSET window has 256 slots a preamble, of which 139 hold a word. -/
theorem psetAndTdWindows : Obligations.PsetAndTdWindows := by
  intro s h data hr hb hh
  refine ⟨fun i hi k hk => ?_, fun j hj => ?_⟩
  · rw [← halfOf_eq_extract hh]
    exact hostAccess_readOnly hr hb (by omega) (by omega) (targetAt_pset hi hk hh) rfl data
  · rw [← halfOf_eq_extract hh]
    exact hostAccess_readOnly hr hb (by omega) (by omega) (targetAt_td hj hh) rfl data

/-- Settles O21: the word an element of the view shows is `asmWord`. -/
theorem asmWindow : Obligations.AsmWindow := by
  intro s i h data hr hb hi hh
  rw [← halfOf_eq_extract hh]
  exact hostAccess_readOnly hr hb (by omega) (by omega) (targetAt_asm hi hh) rfl data

end Sys2Proof.Machine

namespace Sys2Proof.Machine

/-! Other agents on the frame memory bus (20_memory.md R177): the two answers of a write and of a read, in a race and
outside one. -/

variable {s : State} {addr : Addr}

theorem inFrameRegion_iff (s : State) (x : Nat) : s.inFrameRegion x = true ↔ ¬s.outsideFrame x := by
  rw [State.inFrameRegion, decide_eq_true_iff, not_not]
  rfl

/-- An access of another agent to `addr` is a race: a frame command is in progress and `addr` is in its region. -/
def State.races (s : State) (addr : Addr) : Bool := s.frameInProgress && s.inFrameRegion addr.toNat

theorem races_of_inside (hp : s.frameInProgress = true) (hin : ¬s.outsideFrame addr.toNat) : s.races addr = true := by
  rw [State.races, hp, (inFrameRegion_iff s _).2 hin]
  rfl

theorem not_races_of_outside (h : s.frameInProgress = false ∨ s.outsideFrame addr.toNat) : s.races addr = false := by
  rw [State.races, Bool.and_eq_false_iff, Bool.eq_false_iff (b := s.inFrameRegion _), Ne, inFrameRegion_iff, not_not]
  exact h

theorem agentWrite_race (h : s.races addr = true) (b : Byte) : agentWrite addr b s =
    .next { s with mem := s.spoiledRegion s.draws, raced := true, draws := s.draws + 1 } := if_pos h

theorem agentWrite_plain (h : s.races addr = false) (b : Byte) : agentWrite addr b s =
    .next { s with mem := memWriteByte s.mem addr.toNat b } := if_neg (Bool.eq_false_iff.1 h)

theorem agentRead_race (h : s.races addr = true) : agentRead addr s =
    .next { s with agentResponse := some (Config.anyByte s.draws), draws := s.draws + 1 } := if_pos h

theorem agentRead_plain (h : s.races addr = false) {v : Byte} (hv : memRead s.mem addr.toNat = some v) :
    agentRead addr s = .next { s with agentResponse := some v } := by
  have hfree : ¬(s.frameInProgress && s.inFrameRegion addr.toNat) = true := Bool.eq_false_iff.1 h
  rw [agentRead, if_neg hfree, hv]

/-- Settles O59: a write outside a race leaves which accesses race as it was, so the byte reads back. -/
theorem otherAgentsWrites : Obligations.OtherAgentsWrites := by
  intro s addr b
  refine ⟨fun hp hin => ⟨_, agentWrite_race (races_of_inside hp hin) b, ?_⟩,
    fun hp hin => ⟨_, agentRead_race (races_of_inside hp hin)⟩,
    fun h v hv => agentRead_plain (not_races_of_outside h) hv, fun h => ?_⟩
  · exact fun x hx => memRead_spoiledRegion_outside s s.draws hx
  · have hplain : s.races addr = false := not_races_of_outside h
    have hread (x : Nat) : memRead (memWriteByte s.mem addr.toNat b) x =
        if x = addr.toNat then some b else memRead s.mem x := memRead_writeByte s.mem addr.toNat b x
    exact ⟨_, agentWrite_plain hplain b, hread,
      agentRead_plain (s := { s with mem := memWriteByte s.mem addr.toNat b }) hplain (by rw [hread, if_pos rfl])⟩

end Sys2Proof.Machine

namespace Sys2Proof.Machine

/-! Decoding and encoding (30_encoding.md R200, R205, R206): the two fields of a word, the opcode map, and the three
outcomes of the decoder. -/

variable {w : Half} {i : Instr}

/-! The fields of a word: RSVD in bits [31:8], OPC in bits [7:0]. -/

theorem rsvd_eq_zero_iff (w : Half) : w.extractLsb' 8 24 = 0#24 ↔ w.toNat / 256 = 0 := by
  have hw : w.toNat < 2 ^ 32 := w.isLt
  rw [← BitVec.toNat_inj, BitVec.extractLsb'_toNat, BitVec.toNat_ofNat, Nat.shiftRight_eq_div_pow]
  omega

theorem opc_toNat (w : Half) : (w.extractLsb' 0 8).toNat = w.toNat % 256 := by
  rw [BitVec.extractLsb'_toNat, Nat.shiftRight_zero]

theorem encode_toNat (i : Instr) : (encode i).toNat = i.opcode.toNat := by
  rw [encode, BitVec.toNat_append, BitVec.toNat_ofNat, Nat.zero_mod, Nat.zero_shiftLeft, Nat.zero_or]

/-- A word is its two fields, so it encodes the command whose OPC it has when RSVD is clear. -/
theorem eq_encode (hr : w.extractLsb' 8 24 = 0#24) (ho : w.extractLsb' 0 8 = i.opcode) : w = encode i := by
  have hquot : w.toNat / 256 = 0 := (rsvd_eq_zero_iff w).1 hr
  apply BitVec.eq_of_toNat_eq
  rw [encode_toNat, ← ho, opc_toNat]
  omega

/-! The opcode map, as the decoder, the statements' table and the list of legal codes each have it. -/

/-- The decoder's table is the inverse of `Instr.opcode`. -/
theorem decodeOpc_eq_some_iff (n : Nat) (i : Instr) : decodeOpc n = some i ↔ n = i.opcode.toNat := by
  constructor
  · intro h
    unfold decodeOpc at h
    split at h <;> cases h <;> rfl
  · rintro rfl
    cases i <;> rfl

theorem opcode_of_mem_opcodeMap : ∀ row ∈ opcodeMap, row.1 = row.2.opcode := by decide

theorem opcode_mem_opcodeMap (i : Instr) : (i.opcode, i) ∈ opcodeMap := by cases i <;> decide

theorem opcodes_eq_map : opcodes = opcodeMap.map fun row => row.1.toNat := by decide

theorem exists_opcode_of_mem_opcodes {n : Nat} (h : n ∈ opcodes) : ∃ i : Instr, n = i.opcode.toNat := by
  rw [opcodes_eq_map, List.mem_map] at h
  obtain ⟨row, hrow, rfl⟩ := h
  exact ⟨row.2, congrArg BitVec.toNat (opcode_of_mem_opcodeMap row hrow)⟩

/-! The three outcomes of the decoder. -/

theorem decode_rsvdBits (hr : w.extractLsb' 8 24 ≠ 0#24) : decode w = .illegal .rsvdBits :=
  if_pos (bne_iff_ne.2 (mt (rsvd_eq_zero_iff w).2 hr))

/-- With RSVD clear the opcode test decides. -/
theorem decode_rsvdClear (hr : w.extractLsb' 8 24 = 0#24) :
    decode w = ((decodeOpc (w.extractLsb' 0 8).toNat).map Decoded.command).getD (.illegal .opcUnknown) := by
  have hquot : ¬(w.toNat / 256 != 0) = true := by rw [(rsvd_eq_zero_iff w).1 hr]; decide
  rw [decode, if_neg hquot, opc_toNat]
  cases decodeOpc (w.toNat % 256) <;> rfl

theorem decode_command (hr : w.extractLsb' 8 24 = 0#24) (ho : w.extractLsb' 0 8 = i.opcode) :
    decode w = .command i := by
  rw [decode_rsvdClear hr, (decodeOpc_eq_some_iff _ i).2 (congrArg BitVec.toNat ho)]
  rfl

theorem decode_opcUnknown (hr : w.extractLsb' 8 24 = 0#24) (ho : ∀ i : Instr, w.extractLsb' 0 8 ≠ i.opcode) :
    decode w = .illegal .opcUnknown := by
  have hnone : decodeOpc (w.extractLsb' 0 8).toNat = none :=
    Option.eq_none_iff_forall_ne_some.2 fun i hi =>
      ho i (BitVec.eq_of_toNat_eq ((decodeOpc_eq_some_iff _ i).1 hi))
  rw [decode_rsvdClear hr, hnone]
  rfl

/-- Only a word whose RSVD is clear and whose OPC is the command's decodes to a command. -/
theorem fields_of_decode_command (h : decode w = .command i) :
    w.extractLsb' 8 24 = 0#24 ∧ w.extractLsb' 0 8 = i.opcode := by
  by_cases hr : w.extractLsb' 8 24 = 0#24
  · by_cases ho : ∃ j : Instr, w.extractLsb' 0 8 = j.opcode
    · obtain ⟨j, hj⟩ := ho
      rw [decode_command hr hj] at h
      cases h
      exact ⟨hr, hj⟩
    · rw [decode_opcUnknown hr (not_exists.1 ho)] at h
      cases h
  · rw [decode_rsvdBits hr] at h
    cases h

theorem fields_of_wordWellFormed (h : wordWellFormed w = true) :
    w.extractLsb' 8 24 = 0#24 ∧ ∃ i : Instr, w.extractLsb' 0 8 = i.opcode := by
  obtain ⟨hrsvd, hopc⟩ := Bool.and_eq_true_iff.1 h
  obtain ⟨i, hi⟩ := exists_opcode_of_mem_opcodes (List.contains_iff_mem.1 hopc)
  exact ⟨(rsvd_eq_zero_iff w).2 (beq_iff_eq.1 hrsvd), i, BitVec.eq_of_toNat_eq ((opc_toNat w).trans hi)⟩

/-! The round trip, for every command. -/

theorem roundTrip : ∀ i : Instr, Laws.RoundTrip.Statement i
  | .nop => Laws.RoundTrip.nop
  | .rootSample => Laws.RoundTrip.rootSample
  | .csSample => Laws.RoundTrip.csSample
  | .dftCoef => Laws.RoundTrip.dftCoef
  | .genSet => Laws.RoundTrip.genSet
  | .placeGrid => Laws.RoundTrip.placeGrid
  | .reorder => Laws.RoundTrip.reorder
  | .transform => Laws.RoundTrip.transform
  | .buildBlock => Laws.RoundTrip.buildBlock
  | .computeOffset => Laws.RoundTrip.computeOffset
  | .placeFrame => Laws.RoundTrip.placeFrame
  | .generate => Laws.RoundTrip.generate

@[simp] theorem decode_encode (i : Instr) : decode (encode i) = .command i := (roundTrip i).1

@[simp] theorem Instr.wellFormed_eq_true (i : Instr) : i.wellFormed = true := by cases i <;> rfl

@[simp] theorem wordWellFormed_encode (i : Instr) : wordWellFormed (encode i) = true :=
  (roundTrip i).2.trans (Instr.wellFormed_eq_true i)

/-- Settles O2: a word that decodes to a command, or passes the check, has the fields of that command's encoding. -/
theorem decodeEncodeAgree : Obligations.DecodeEncodeAgree := by
  refine ⟨fun w i => ⟨fun h => ?_, ?_⟩, fun w => ⟨fun h => ?_, ?_⟩⟩
  · obtain ⟨hr, ho⟩ := fields_of_decode_command h
    exact eq_encode hr ho
  · rintro rfl
    exact decode_encode i
  · obtain ⟨hr, i, ho⟩ := fields_of_wordWellFormed h
    exact ⟨i, eq_encode hr ho⟩
  · rintro ⟨i, rfl⟩
    exact wordWellFormed_encode i

/-- Settles O1: the row the search finds is the row of the command with that OPC; when it finds none, no command has
it. -/
theorem decodeFollowsTheOpcodeMap : Obligations.DecodeFollowsTheOpcodeMap := by
  refine fun w => ⟨decode_rsvdBits, fun hr => ?_⟩
  split
  next row hfind =>
    have hopc : row.1 = w.extractLsb' 0 8 := by simpa using List.find?_some hfind
    have hrow : row.1 = row.2.opcode := opcode_of_mem_opcodeMap row (List.mem_of_find?_eq_some hfind)
    exact decode_command hr (hopc.symm.trans hrow)
  next hfind =>
    refine decode_opcUnknown hr fun i hi => ?_
    exact List.find?_eq_none.1 hfind _ (opcode_mem_opcodeMap i) (beq_iff_eq.2 hi.symm)

/-- Settles O3: six encodings, an OPC outside the map, and RSVD set with an OPC in the map and with one outside it. -/
theorem sampleWordsDecode : Obligations.SampleWordsDecode :=
  ⟨decode_encode .nop, decode_encode .dftCoef, decode_encode .reorder, decode_encode .transform,
    decode_encode .buildBlock, decode_encode .placeFrame,
    decode_opcUnknown (by decide) (fun i => by cases i <;> decide),
    decode_rsvdBits (by decide), decode_rsvdBits (by decide)⟩

end Sys2Proof.Machine

namespace Sys2Proof.Machine

/-! The command lifecycle (40_command_control.md): acceptance, the host's writes while a command runs, what the result
and configuration registers show, and how a command ends. -/

variable {s t : State} {o : Nat} {data : Half} {i : Instr}

/-! ### Where a register lies -/

/-- The map finds each register at its own offset alone (20_memory.md R160). -/
theorem offset_of_targetAt {r : Register} (h4 : o % 4 = 0) (h : targetAt o = .register r) : r.offset = o := by
  obtain ⟨-, ht⟩ | ⟨-, ht⟩ | ⟨-, _, _, ht⟩ | ⟨-, _, _, ht⟩ | ⟨-, _, _, _, ht⟩ | ⟨-, _, _, ht⟩ := targetAt_cases o
  · exact (offset_of_registerAt h4 (ht.symm.trans h)).1
  all_goals
    rw [ht] at h
    cases h

/-! ### CTRL (10_state.md R55) -/

/-- A write of CTRL in every state with the hardware reset released: a soft reset, or IRQ_EN (R262). -/
theorem hostAccess_writeCtrl (hr : s.resetAsserted = false) (data : Half) : hostAccess (writeAt 0x010 data) s =
    .next { (if data.getLsbD 0 then s.doReset else { s with irqEn := data.getLsbD 1 }) with response := okay 0#32 } :=
  hostAccess_writeAt hr (by decide) (by decide)

theorem hostAccess_softReset (hr : s.resetAsserted = false) (hbit : data.getLsbD 0 = true) :
    hostAccess (writeAt 0x010 data) s = .next { s.doReset with response := okay 0#32 } := by
  rw [hostAccess_writeCtrl hr, if_pos hbit]

theorem hostAccess_setIrqEn (hr : s.resetAsserted = false) (hbit : data.getLsbD 0 = false) :
    hostAccess (writeAt 0x010 data) s = .next { s with irqEn := data.getLsbD 1, response := okay 0#32 } := by
  rw [hostAccess_writeCtrl hr, if_neg (Bool.eq_false_iff.1 hbit)]

theorem hostAccess_readCtrl (hr : s.resetAsserted = false) :
    hostAccess (readAt 0x010) s = .next { s with response := okay (if s.irqEn then 0x2#32 else 0x0#32) } := by
  have hctrl : s.readRegister .ctrl = if s.irqEn then 0x2#32 else 0x0#32 := by
    rw [State.readRegister]
    cases s.irqEn <;> decide
  rw [← hctrl]
  exact hostAccess_readRegister hr (by decide) (by decide) rfl

/-- Settles O17: bit 1 of the data is what CTRL then reads. -/
theorem controlWriteSetsIrqEnable : Obligations.ControlWriteSetsIrqEnable := by
  intro s hr
  refine ⟨hostAccess_readCtrl hr, fun data hbit => ⟨_, hostAccess_setIrqEn hr hbit, rfl, ?_⟩,
    fun data hbit => ⟨_, hostAccess_softReset hr hbit, doReset_afterReset s s.resetAsserted _, ?_⟩⟩
  · have hmask : data &&& 0x2#32 = if data.getLsbD 1 then 0x2#32 else 0x0#32 := BitVec.and_twoPow data 1
    rw [hmask]
    exact hostAccess_readCtrl hr
  · exact hostAccess_readCtrl hr

/-! ### The host's writes while a command runs (R253) -/

theorem hostAccess_write_dropped (hr : s.resetAsserted = false) (hb : s.busy = true) (ho : o < 2 ^ 20)
    (h4 : o % 4 = 0) (hctrl : o ≠ 0x010) (hstatus : o ≠ 0x018) : hostAccess (writeAt o data) s =
      .next { s with status := { s.status with wbusy := true }, response := okay 0#32 } := by
  have hc : targetAt o ≠ .register .ctrl := fun h => hctrl (offset_of_targetAt h4 h).symm
  have hs : targetAt o ≠ .register .status := fun h => hstatus (offset_of_targetAt h4 h).symm
  rw [hostAccess_writeAt hr ho h4, hostWrite_busy hb hc hs]
  rfl

/-- Settles O24: CTRL and STATUS are at no other offset, and their writes do not look at BUSY. -/
theorem writesWhileBusy : Obligations.WritesWhileBusy := by
  obtain ⟨-, hstatus⟩ := statusRegister
  obtain ⟨hreset, -⟩ := resetsGiveTheResetState
  intro s hr hb
  exact ⟨fun o data ho h4 hc hs => hostAccess_write_dropped hr hb ho h4 hc hs,
    fun data hbit => hostAccess_setIrqEn hr hbit, fun data hbit => hreset s data hr hbit,
    fun data => (hstatus s).2 data hr, fun a hbad => illegalAccessGetsTheBusError s a hr hbad⟩

/-! ### Acceptance, and what changes CMD (R250, 10_state.md R56) -/

theorem isFrameCommand_iff (c : Decoded) :
    isFrameCommand c = true ↔ c = .command .placeFrame ∨ c = .command .generate := by
  cases c with
  | command i => cases i <;> simp [isFrameCommand]
  | illegal c => simp [isFrameCommand]

theorem hostAccess_readCmd (hr : s.resetAsserted = false) :
    hostAccess (readAt 0x014) s = .next { s with response := okay s.cmd } :=
  hostAccess_readRegister (o := 0x014) (r := .cmd) hr (by decide) (by decide) rfl

theorem hostRead_cmd (s : State) (g : Target) : (s.hostRead g).cmd = s.cmd := by
  by_cases h : s.busy = false ∨ g.isWindow = false
  · rw [hostRead_determined h]
  · obtain ⟨hb, hw⟩ := not_or.1 h
    rw [hostRead_window_busy (Bool.eq_true_of_not_eq_false hb) (Bool.eq_true_of_not_eq_false hw)]

/-- A write leaves CMD, accepts a command, or resets. -/
theorem hostWrite_cmd_cases (s : State) (g : Target) (data : Half) :
    (s.hostWrite g data).cmd = s.cmd ∨
    (g = .register .cmd ∧ s.busy = false ∧ (s.hostWrite g data).cmd = data) ∨
    (g = .register .ctrl ∧ data.getLsbD 0 = true ∧ (s.hostWrite g data).cmd = 0#32) := by
  by_cases hc : g = .register .ctrl
  · subst hc
    rw [hostWrite_ctrl]
    split
    case isTrue hbit => exact .inr (.inr ⟨rfl, hbit, rfl⟩)
    case isFalse => exact .inl rfl
  by_cases hs : g = .register .status
  · subst hs
    exact .inl rfl
  cases hb : s.busy with
  | true =>
    rw [hostWrite_busy hb hc hs]
    exact .inl rfl
  | false =>
    cases g with
    | register r =>
      rw [hostWrite_register hb (by simpa using hc) (by simpa using hs)]
      by_cases hr : r = .cmd
      · subst hr
        exact .inr (.inl ⟨rfl, rfl, rfl⟩)
      · rw [writeRegister_eq hr]
        exact .inl rfl
    | grid j k =>
      rw [hostWrite_grid hb]
      exact .inl rfl
    | _ =>
      rw [hostWrite_ignored hb rfl]
      exact .inl rfl

/-- A legal access is a 32-bit read or write at an aligned offset (20_memory.md R150). -/
theorem eq_readAt_or_writeAt {a : HostAccess} (hw : a.wellFormed = true) :
    ∃ o, o < 2 ^ 20 ∧ o % 4 = 0 ∧ (a = readAt o ∨ ∃ data, a = writeAt o data) := by
  obtain ⟨width, offset, op⟩ := a
  obtain ⟨rfl, h4⟩ := (wellFormed_iff _).1 hw
  refine ⟨offset.toNat, offset.isLt, h4, ?_⟩
  cases op with
  | read => exact .inl (by simp [readAt])
  | write data => exact .inr ⟨data, by simp [writeAt]⟩

theorem hostAccess_cmd_cases {a : HostAccess} (h : hostAccess a s = .next t) :
    t.cmd = s.cmd ∨ (∃ w, a = writeAt 0x014 w ∧ s.busy = false ∧ t.cmd = w) ∨
      ((Event.host a).isReset = true ∧ t.cmd = 0#32) := by
  have hr : s.resetAsserted = false := released_of_hostAccess h
  cases hw : a.wellFormed with
  | false =>
    rw [hostAccess_illegal hr hw] at h
    cases h
    exact .inl rfl
  | true =>
    obtain ⟨o, ho, h4, rfl | ⟨data, rfl⟩⟩ := eq_readAt_or_writeAt hw
    · rw [hostAccess_readAt hr ho h4] at h
      cases h
      exact .inl (hostRead_cmd s _)
    · rw [hostAccess_writeAt hr ho h4] at h
      cases h
      obtain hkeep | ⟨hg, hb, hcmd⟩ | ⟨hg, hbit, hcmd⟩ := hostWrite_cmd_cases s (targetAt o) data
      · exact .inl hkeep
      · obtain rfl := offset_of_targetAt h4 hg
        exact .inr (.inl ⟨data, rfl, hb, hcmd⟩)
      · obtain rfl := offset_of_targetAt h4 hg
        exact .inr (.inr ⟨by simpa [Event.isReset, writeAt, Register.offset] using hbit, hcmd⟩)

theorem exec_cmd (h : exec i s = .next t) : t.cmd = s.cmd := by
  obtain ⟨⟨-, -, hcmd, -⟩, -⟩ := commandFrames i s t h
  exact hcmd

theorem sequencerTurn_cmd (h : sequencerTurn s = .next t) : t.cmd = s.cmd := by
  obtain hturn | ⟨c, st, -, -, hturn⟩ | ⟨i, st, -, -, hturn⟩ := sequencerTurn_cases s <;> rw [hturn] at h
  · cases h
    rfl
  · cases h
    rfl
  · exact exec_cmd h

theorem agentWrite_cmd {addr : Addr} {b : Byte} (h : agentWrite addr b s = .next t) : t.cmd = s.cmd := by
  cases hrace : s.races addr with
  | true =>
    rw [agentWrite_race hrace] at h
    cases h
    rfl
  | false =>
    rw [agentWrite_plain hrace] at h
    cases h
    rfl

theorem agentRead_cmd {addr : Addr} (h : agentRead addr s = .next t) : t.cmd = s.cmd := by
  unfold agentRead at h
  split at h
  · cases h
    rfl
  · split at h
    · cases h
      rfl
    · cases h

/-- Nothing but an acceptance and a reset changes CMD. -/
theorem handle_cmd_cases {e : Event} (h : handle e s = .next t) :
    t.cmd = s.cmd ∨ (∃ w, e = .host (writeAt 0x014 w) ∧ s.busy = false ∧ t.cmd = w) ∨
      (e.isReset = true ∧ t.cmd = 0#32) := by
  cases e with
  | host a => simpa only [Event.host.injEq] using hostAccess_cmd_cases h
  | agentWrite addr b => exact .inl (agentWrite_cmd h)
  | agentRead addr => exact .inl (agentRead_cmd h)
  | resetLine asserted =>
    cases asserted with
    | true =>
      cases h
      exact .inr (.inr ⟨rfl, rfl⟩)
    | false =>
      cases h
      exact .inl rfl
  | sequencer => exact .inl (sequencerTurn_cmd h)

/-- The acceptance step, with FRAME_VALID as R250 says it. -/
theorem accept_eq (s : State) (w : Half) : s.accept w = { s with
    cmd := w
    status := { s.status with
      lastOpc := w.extractLsb' 0 8
      done := false
      frameValid :=
        if decode w = .command .placeFrame ∨ decode w = .command .generate then false else s.status.frameValid }
    sequencer := .busy (decode w) .start
    shadow := s.results
    raced := false } := by
  simp only [State.accept, and_not_eq_ite, isFrameCommand_iff]

/-- Settles O22: the event that changes CMD is an acceptance or a reset. -/
theorem commandAcceptance : Obligations.CommandAcceptance := by
  refine ⟨fun s w hr => ⟨fun hb => ?_, fun hb => ?_⟩, fun s hr => hostAccess_readCmd hr, fun s t hstep hne => ?_,
    fun s data hr hbit => ⟨_, hostAccess_softReset hr hbit, rfl⟩, fun s => ⟨_, rfl, rfl⟩⟩
  · rw [hostAccess_writeCmd hr hb, accept_eq]
    exact ⟨_, rfl, rfl, hostAccess_readCmd hr⟩
  · exact hostAccess_write_dropped hr hb (by decide) (by decide) (by decide) (by decide)
  · cases he : s.events with
    | nil =>
      rw [step_no_event he] at hstep
      exact absurd (sequencerTurn_cmd hstep) hne
    | cons e rest =>
      rw [step_event he] at hstep
      obtain hkeep | ⟨w, rfl, hb, hcmd⟩ | ⟨hreset, hcmd⟩ := handle_cmd_cases hstep
      · exact absurd hkeep hne
      · exact .inl ⟨w, rest, rfl, hb, hcmd⟩
      · exact .inr ⟨e, rest, rfl, hreset, hcmd⟩

/-! ### How a command ends (R254, R257) -/

/-- INVALID_ARGUMENT or OUT_OF_RANGE (60_exceptions.md R600). -/
def operandCode (code : BitVec 3) : Prop := code = 1#3 ∨ code = 2#3

/-- Pseudocode past a command's checks: it raises no operand error, it has not ended while it waits, and it leaves the
results copied at acceptance as they were, `copy`. -/
def Progress.PastChecks (copy : Results) : Progress → Prop
  | .done t => t.shadow = copy
  | .failed t e => t.shadow = copy ∧ ¬operandCode e.code
  | .waiting t => t.shadow = copy ∧ t.busy = true

theorem Progress.PastChecks.finish_shadow {copy : Results} {p : Progress} (h : p.PastChecks copy) :
    p.finish.shadow = copy := by
  cases p with
  | done t => exact h
  | failed t e | waiting t =>
    obtain ⟨hcopy, -⟩ := h
    exact hcopy

/-- What completes past the checks completes without an operand error. -/
theorem Progress.PastChecks.not_operandCode {copy : Results} {p : Progress} (h : p.PastChecks copy)
    (hq : p.finish.sequencer = .idle) : ¬operandCode p.finish.status.errCode := by
  cases p with
  | done t => simp [operandCode, Err.code]
  | failed t e =>
    obtain ⟨-, hcode⟩ := h
    exact hcode
  | waiting t =>
    obtain ⟨-, hbusy⟩ := h
    have hidle : t.busy = false := busy_eq_false_iff.2 hq
    simp [hbusy] at hidle

theorem transformAnswer_pastChecks (s : State) (i : Instr) {k : State → Progress}
    (hk : ∀ t, (k t).PastChecks t.shadow) : ((s.transformAnswer i).andThen k).PastChecks s.shadow := by
  obtain ⟨l, d, hdone | hfail | hwait⟩ := transformAnswer_cases i s
  · rw [hdone]
    exact hk _
  · rw [hfail]
    exact ⟨rfl, by simp [operandCode, Err.code]⟩
  · rw [hwait]
    exact ⟨rfl, rfl⟩

theorem transform_pastChecks (s : State) : (s.transformAnswer .transform).PastChecks s.shadow := by
  rw [← andThen_progressDone (s.transformAnswer .transform)]
  exact transformAnswer_pastChecks s _ fun t => rfl

theorem frameStage_pastChecks (s : State) (i : Instr) (off : Int) : (s.frameStage i off).PastChecks s.shadow := by
  obtain ⟨l, d, hdone | ⟨je, -, herror⟩ | ⟨n, k, hwait, -⟩⟩ := frameStage_cases i off s
  · rw [hdone]
    rfl
  · rw [herror]
    exact ⟨rfl, by simp [operandCode, Err.code]⟩
  · rw [hwait]
    exact ⟨rfl, rfl⟩

theorem generateAnswer_pastChecks (s : State) : s.generateAnswer.PastChecks s.shadow :=
  transformAnswer_pastChecks s _ fun t => frameStage_pastChecks t.latchBlock.storeOffset _ _

/-- A command's answer `t` from `s`: a failing check completed it where it started, or its pseudocode got past them. -/
def State.Answers (s t : State) : Prop :=
  (∃ e, t = s.complete e) ∨ ∃ p : Progress, p.PastChecks s.shadow ∧ t = p.finish

theorem Progress.PastChecks.answers {p : Progress} (h : p.PastChecks s.shadow) : s.Answers p.finish :=
  .inr ⟨p, h, rfl⟩

theorem checked_answers {checks : Checks} {body : State → Progress} (h : (body s).PastChecks s.shadow) :
    s.Answers (s.checked checks body).finish := by
  cases hc : firstError checks with
  | some e =>
    rw [checked_of_error hc]
    exact .inl ⟨e, rfl⟩
  | none =>
    rw [checked_of_pass hc]
    exact h.answers

/-- Every check of a command comes before its first effect, at whatever position the command goes on from. -/
theorem exec_answers (h : exec i s = .next t) : s.Answers t := by
  have hdone {u : State} (hu : u.shadow = s.shadow) : s.Answers (Progress.done u).finish :=
    Progress.PastChecks.answers (p := .done u) hu
  cases i <;> cases h
  case nop => exact .inl ⟨.none, rfl⟩
  case rootSample | reorder => exact hdone rfl
  case csSample | dftCoef | genSet | placeGrid | buildBlock | computeOffset => exact checked_answers rfl
  case transform =>
    split
    · exact (transform_pastChecks s.transformBegin).answers (s := s)
    · exact (transform_pastChecks s).answers
    · exact (transform_pastChecks s.transformBegin).answers (s := s)
  case placeFrame =>
    split
    · exact checked_answers (frameStage_pastChecks s _ _)
    · exact checked_answers (frameStage_pastChecks s _ _)
    · exact (frameStage_pastChecks s _ _).answers
  case generate =>
    split
    · exact checked_answers (generateAnswer_pastChecks s.writeGrid.swapGrid.transformBegin)
    · exact (generateAnswer_pastChecks s).answers
    · exact (frameStage_pastChecks s _ _).answers

/-- No command writes the copy (R254). -/
theorem exec_shadow (h : exec i s = .next t) : t.shadow = s.shadow := by
  obtain ⟨e, rfl⟩ | ⟨p, hp, rfl⟩ := exec_answers h
  · rfl
  · exact hp.finish_shadow

/-- Settles O28: an operand error comes from a check, before any effect. -/
theorem operandErrorsChangeNothing : Obligations.OperandErrorsChangeNothing := by
  intro i s t h hq hcode
  obtain ⟨e, rfl⟩ | ⟨p, hp, rfl⟩ := exec_answers h
  · rfl
  · exact absurd hcode (hp.not_operandCode hq)

/-! ### What the result and the configuration registers read (R254, R255; 10_state.md R51, R100 to R127) -/

theorem exec_cfg (h : exec i s = .next t) : t.cfg = s.cfg := by
  obtain ⟨⟨hcfg, -⟩, -⟩ := commandFrames i s t h
  exact hcfg

/-- The offsets of the result registers (10_state.md R112, R117 to R119, R123 to R125). -/
def resultOffsets : List Nat := [0x050, 0x064, 0x068, 0x06C, 0x080, 0x084, 0x088]

/-- The offsets of the configuration and argument registers outside the two tables (10_state.md R100 to R111, R120 to
R122). -/
def configOffsets : List Nat :=
  [0x020, 0x024, 0x028, 0x02C, 0x030, 0x034, 0x038, 0x03C, 0x040, 0x044, 0x048, 0x04C, 0x070, 0x074, 0x078]

theorem offset_of_resultRead {r : Results} {v : Half} (h : resultRead o r = some v) : o ∈ resultOffsets := by
  by_contra hno
  simp only [resultOffsets, List.mem_cons, List.not_mem_nil, not_or] at hno
  simp [resultRead, hno] at h

theorem offset_of_configRead {c : ConfigRegs} {v : Half} (h : configRead o c = some v) :
    o ∈ configOffsets ∨ (0x100 ≤ o ∧ o ≤ 0x19C ∧ o % 4 = 0) ∨ (0x1A0 ≤ o ∧ o ≤ 0x1D4 ∧ o % 4 = 0) := by
  by_contra hno
  simp only [configOffsets, List.mem_cons, List.not_mem_nil, not_or] at hno
  obtain ⟨hone, hroot, hsym⟩ := hno
  simp only [configRead, hone, hroot, hsym, if_false, reduceCtorEq] at h

/-- Each of these offsets is a register's. -/
theorem register_of_fieldShown {c : ConfigRegs} {r : Results} {v : Half}
    (h : resultRead o r = some v ∨ configRead o c = some v) :
    o < 0x200 ∧ o % 4 = 0 ∧ ∃ r, registerAt o = .register r ∧ r.offset = o ∧ r.Exists := by
  have hone : ∀ o ∈ resultOffsets ++ configOffsets, o < 0x200 ∧ o % 4 = 0 ∧ registerAt o ≠ .reserved := by decide
  have hshown : o < 0x200 ∧ o % 4 = 0 ∧ registerAt o ≠ .reserved := by
    obtain h | h := h
    · exact hone o (List.mem_append_left _ (offset_of_resultRead h))
    · obtain h | ⟨hlo, hhi, h4⟩ | ⟨hlo, hhi, h4⟩ := offset_of_configRead h
      · exact hone o (List.mem_append_right _ h)
      · rw [registerAt_rootTable hlo (by omega)]
        exact ⟨by omega, h4, nofun⟩
      · rw [registerAt_symDur hlo (by omega)]
        exact ⟨by omega, h4, nofun⟩
  obtain ⟨hlt, h4, hsome⟩ := hshown
  exact ⟨hlt, h4, (registerAt_cases o h4).resolve_left hsome⟩

/-- FB_BASE is a multiple of 8 (10_state.md R110). -/
theorem fbBaseWord_eq_ofNat (b : BitVec 29) : fbBaseWord b = BitVec.ofNat 32 (8 * b.toNat) := by
  apply BitVec.eq_of_toNat_eq
  have hb : b.toNat < 2 ^ 29 := b.isLt
  rw [fbBaseWord, BitVec.toNat_append, BitVec.toNat_ofNat, BitVec.toNat_ofNat, Nat.zero_mod, Nat.or_zero,
    Nat.shiftLeft_eq]
  omega

/-- Q_PHASE shows PVALID above PHASE (10_state.md R125). -/
theorem qPhaseWord_eq_ofNat (valid : Bool) (p : BitVec 8) :
    0#23 ++ bit valid ++ p = BitVec.ofNat 32 (p.toNat + if valid then 0x100 else 0) := by
  have hp : p.toNat < 2 ^ 8 := p.isLt
  have hhigh : (0#23 ++ bit valid).toNat = if valid then 1 else 0 := by cases valid <;> rfl
  apply BitVec.eq_of_toNat_eq
  rw [BitVec.toNat_append, ← Nat.shiftLeft_add_eq_or_of_lt hp, Nat.shiftLeft_eq, hhigh, BitVec.toNat_ofNat]
  split <;> omega

theorem readRegister_result {r : Register} {v : Half} (h : resultRead r.offset s.visibleResults = some v) :
    s.readRegister r = v := by
  cases r with
  | frameOffset | asmLen | asmCp | asmR | qRe | qIm =>
    cases h
    rfl
  | qPhase =>
    cases h
    exact qPhaseWord_eq_ofNat _ _
  | rootTable j | symDur j =>
    have hone := offset_of_resultRead h
    simp only [resultOffsets, Register.offset, List.mem_cons, List.not_mem_nil, or_false] at hone
    omega
  | _ => cases h

theorem readRegister_config {r : Register} {v : Half} (h : configRead r.offset s.cfg = some v) (hex : r.Exists) :
    s.readRegister r = v := by
  cases r with
  | fbBase =>
    cases h
    exact fbBaseWord_eq_ofNat _
  | rootTable j =>
    have hj : j < 40 := hex
    have hdiv : (0x100 + 4 * j - 0x100) / 4 = j := by omega
    have hread : configRead (0x100 + 4 * j) s.cfg = some ((nth 0#8 s.cfg.rootTable j).setWidth 32) := by
      simp (disch := omega) only [configRead, if_neg, if_pos, hdiv]
    cases hread.symm.trans h
    rfl
  | symDur j =>
    have hj : j < 14 := hex
    have hdiv : (0x1A0 + 4 * j - 0x1A0) / 4 = j := by omega
    have hread : configRead (0x1A0 + 4 * j) s.cfg = some ((nth 0#16 s.cfg.symDur j).setWidth 32) := by
      simp (disch := omega) only [configRead, if_neg, if_pos, hdiv]
    cases hread.symm.trans h
    rfl
  | ncs | rbCount | freqOffset | cpLen | repeatCount | samplesPerMs | slotSamples | frameIndex | slotIndex
  | startSymbol | preambleIndex | qN | qU | qV =>
    cases h
    rfl
  | _ => cases h

/-- Settles O25: a command keeps the copy and the configuration, and an offset that shows a field is a register's. -/
theorem resultRegistersWhileBusy : Obligations.ResultRegistersWhileBusy := by
  refine ⟨fun s w => rfl, fun i s t h => ⟨exec_shadow h, exec_cfg h⟩, fun s o v h => ?_⟩
  obtain ⟨ho, h4, r, hreg, rfl, hex⟩ := register_of_fieldShown h
  have hread : s.readRegister r = v := h.elim readRegister_result (readRegister_config · hex)
  rw [← hread]
  refine ⟨?_, fun hr => hostAccess_readRegister hr ho h4 hreg⟩
  rw [targetAt_low ho, hreg]
  rfl

/-! ### NOP and the illegal command (R252, R260) -/

/-- A completion writes the record of its cause alone (R256). -/
theorem complete_withRecord (s : State) (e : Err) : s.complete e = s.withRecord e.code e.detail := rfl

theorem execIllegal_eq (c : IllegalCause) (s : State) : execIllegal c s =
    .next (s.withRecord (illegalErr c).code (illegalErr c).detail) := rfl

/-- Settles O23: each cause has its own row of the error table. -/
theorem illegalCommand : Obligations.IllegalCommand := by
  intro s c
  rw [execIllegal_eq]
  cases c with
  | rsvdBits => rfl
  | opcUnknown => rfl

/-- Settles O30: NOP is its completion. -/
theorem nopCompletes : Obligations.NopCompletes :=
  ⟨decode_encode .nop, fun s => ⟨rfl, congrArg Host.Outcome.next (complete_withRecord s .none)⟩⟩

end Sys2Proof.Machine

namespace Sys2Proof.Machine

/-! The commands of the sequence generator (41_sequence_generator.md R303, R311 to R313, R320): each one's checks, and
what it writes when they pass. -/

variable {s : State} {n q : Nat}

/-- Settles O39: ROOT_SAMPLE has no checks. -/
theorem rootSampleResult : Obligations.RootSampleResult := ⟨decode_encode .rootSample, fun _ => rfl⟩

/-! ### A command behind its checks -/

theorem finish_checked_of_error {checks : Checks} {body : State → Progress} {e : Err} (h : firstError checks = some e) :
    (s.checked checks body).finish = s.withRecord e.code e.detail := by
  rw [checked_of_error h]
  rfl

theorem finish_checked_of_done {checks : Checks} {t : State → State} (h : firstError checks = none) :
    (s.checked checks fun s => .done (t s)).finish = (t s).withRecord 0#3 0x00#8 := by
  rw [checked_of_pass h]
  rfl

/-! ### The shift's range check (R312, R313) -/

/-- No shift number is below a `card_v` of 0, so an N_cs of 0 fails the range check as well. -/
theorem cardV_le_iff {v : Nat} : cardV n ≤ v ↔ n = 0 ∨ 139 / n ≤ v := by
  unfold cardV
  split <;> simp [*]

theorem firstError_shiftChecks (s : State) : firstError s.shiftChecks =
    if s.cfg.ncs.toNat = 0 ∨ 139 / s.cfg.ncs.toNat ≤ s.cfg.qV.toNat then some .vRange else none := by
  rw [State.shiftChecks, firstError_cons_decide, firstError_nil]
  exact if_congr cardV_le_iff rfl rfl

/-- A command behind the range check ends with V_RANGE, or with what its body `t` writes. -/
theorem shiftChecked_result {out : Host.Outcome State Fault Refusal} (t : State → State)
    (h : out = .next (s.checked s.shiftChecks fun s => .done (t s)).finish) :
    if s.cfg.ncs.toNat = 0 ∨ 139 / s.cfg.ncs.toNat ≤ s.cfg.qV.toNat then out = .next (s.withRecord 1#3 0x05#8)
    else out = .next ((t s).withRecord 0#3 0x00#8) := by
  have hcheck := firstError_shiftChecks s
  split at hcheck
  case isTrue hv => rw [if_pos hv, h, finish_checked_of_error hcheck, Err.code, Err.detail]
  case isFalse hv => rw [if_neg hv, h, finish_checked_of_done hcheck]

/-- Settles O40. -/
theorem csSampleResult : Obligations.CsSampleResult :=
  ⟨decode_encode .csSample, fun _ => shiftChecked_result
    (fun s => s.setSample (phase s.opQu (modSeq (s.opQn + shiftOf s.opNcs s.opQv)))) rfl⟩

/-- Settles O41. -/
theorem dftCoefResult : Obligations.DftCoefResult :=
  ⟨decode_encode .dftCoef, fun _ => shiftChecked_result
    (fun s => s.setCoef (dftEval s.opQu (shiftOf s.opNcs s.opQv) (modSeq s.opQn))) rfl⟩

/-! ### The configuration check and the preamble set (R303, R320) -/

theorem firstError_configChecks (s : State) : firstError s.configChecks =
    if cardV s.cfg.ncs.toNat = 0 then some .ncsRange
    else if 64 % cardV s.cfg.ncs.toNat ≠ 0 then some .cardvNdiv
    else if 40 < 64 / cardV s.cfg.ncs.toNat then some .ilenGtTable else none := by
  simp only [State.configChecks, firstError_cons, firstError_nil, beq_iff_eq, bne_iff_ne, decide_eq_true_eq]
  rfl

/-- card_v without its division (00_scope.md R18). -/
theorem cardV_eq (hn : n ≠ 0) (hlo : q * n ≤ 139) (hhi : 139 < (q + 1) * n) : cardV n = q := by
  rw [cardV, if_neg hn]
  exact Nat.div_eq_of_lt_le hlo hhi

/-- Below 47 an N_cs outside the passing ranges has a `card_v` that does not divide 64. -/
theorem cardV_not_dvd : ∀ n < 47, ¬(n = 0 ∨ (16 ≤ n ∧ n ≤ 17) ∨ (28 ≤ n ∧ n ≤ 34)) →
    cardV n ≠ 0 ∧ 64 % cardV n ≠ 0 := by decide

theorem cardV_of_passing (h : (16 ≤ n ∧ n ≤ 17) ∨ (28 ≤ n ∧ n ≤ 34) ∨ (47 ≤ n ∧ n ≤ 69)) :
    cardV n = if n ≤ 17 then 8 else if n ≤ 34 then 4 else 2 := by
  obtain h | h | h := h
  · rw [if_pos h.2]
    exact cardV_eq (by omega) (by omega) (by omega)
  · rw [if_neg (by omega), if_pos h.2]
    exact cardV_eq (by omega) (by omega) (by omega)
  · rw [if_neg (by omega), if_neg (by omega)]
    exact cardV_eq (by omega) (by omega) (by omega)

/-- The table of R303: what each N_cs reports, and the `card_v` that makes it so. -/
theorem configDetail_cases (n : Nat) :
    (configDetail n = 0x02#8 ∧ cardV n = 0) ∨ (configDetail n = 0x03#8 ∧ cardV n ≠ 0 ∧ 64 % cardV n ≠ 0) ∨
    (configDetail n = 0x04#8 ∧ cardV n = 1) ∨
    (configDetail n = 0x00#8 ∧ cardV n = if n ≤ 17 then 8 else if n ≤ 34 then 4 else 2) := by
  unfold configDetail
  split
  case isTrue hrange =>
    refine .inl ⟨rfl, ?_⟩
    obtain hzero | hbig := hrange
    · exact if_pos hzero
    · exact cardV_eq (by omega) (by omega) (by omega)
  split
  case isTrue hpass => exact .inr (.inr (.inr ⟨rfl, cardV_of_passing hpass⟩))
  split
  case isTrue hlong => exact .inr (.inr (.inl ⟨rfl, cardV_eq (by omega) (by omega) (by omega)⟩))
  case isFalse hlong => exact .inr (.inl ⟨rfl, cardV_not_dvd n (by omega) (by omega)⟩)

/-- Settles O42: each range of the table fails at its own check, or at none. -/
theorem configCheckTable : Obligations.ConfigCheckTable := by
  intro s
  rw [firstError_configChecks]
  obtain ⟨hd, hc⟩ | ⟨hd, hc, hdvd⟩ | ⟨hd, hc⟩ | ⟨hd, hc⟩ := configDetail_cases s.cfg.ncs.toNat
  · rw [hd, if_pos hc]
    exact ⟨nofun, fun _ => ⟨_, rfl, rfl, rfl⟩⟩
  · rw [hd, if_neg hc, if_pos hdvd]
    exact ⟨nofun, fun _ => ⟨_, rfl, rfl, rfl⟩⟩
  · rw [hd, hc]
    exact ⟨nofun, fun _ => ⟨_, rfl, rfl, rfl⟩⟩
  · have hcard : cardV s.cfg.ncs.toNat = 8 ∨ cardV s.cfg.ncs.toNat = 4 ∨ cardV s.cfg.ncs.toNat = 2 := by
      rw [hc]
      split_ifs <;> decide
    rw [hd, ← hc, iLength]
    refine ⟨fun _ => ?_, fun h => absurd rfl h⟩
    obtain hcard | hcard | hcard := hcard <;> rw [hcard] <;> decide

theorem configDetail_eq_zero_iff (s : State) :
    configDetail s.cfg.ncs.toNat = 0#8 ↔ firstError s.configChecks = none := by
  obtain ⟨hpass, hfail⟩ := configCheckTable s
  refine ⟨fun h => (hpass h).1, fun h => by_contra fun hd => ?_⟩
  obtain ⟨e, he, -⟩ := hfail hd
  rw [h] at he
  cases he

/-- Settles O43. -/
theorem genSetResult : Obligations.GenSetResult := by
  refine ⟨decode_encode .genSet, fun s => ⟨fun hpset hvalid => ?_, fun hfail => ?_, fun hpass => ?_⟩⟩
  · exact (configDetail_eq_zero_iff s).2 (hpset hvalid).1
  · obtain ⟨e, he, hcode, hdetail⟩ := (configCheckTable s).2 hfail
    rw [← hcode, ← hdetail]
    exact congrArg Host.Outcome.next (finish_checked_of_error he)
  · have hcheck := (configDetail_eq_zero_iff s).1 hpass
    have hcard : cardV s.cfg.ncs.toNat = 139 / s.cfg.ncs.toNat := if_neg fun h => by simp [h, configDetail] at hpass
    refine ⟨_, congrArg Host.Outcome.next (finish_checked_of_done hcheck), fun i hi k hk => ?_⟩
    intro card
    rw [psetWord_fill s.psetDef hi hk, State.psetDef, State.opNcs, hcard]
    rfl

end Sys2Proof.Machine

namespace Sys2Proof.Machine

/-! The phase index and the powers of W (41_sequence_generator.md R300, R305, R306): every root sample and every term of
a coefficient is a power of W = exp(-j 2 pi / 139), whose exponent counts mod 139. -/

open Complex

/-! ### The phase index -/

/-- T(n) at every integer n (00_scope.md R21). -/
theorem two_mul_triangular (n : ℤ) : 2 * (n * (n + 1) / 2) = n * (n + 1) :=
  Int.mul_ediv_cancel' (Int.even_mul_succ_self n).two_dvd

theorem modSeq_cast (n : ℤ) : (modSeq n : ℤ) = n % 139 := Int.toNat_of_nonneg (Int.emod_nonneg n (by decide))

theorem triangular_cast (n : Nat) : (triangular n : ℤ) = n * (n + 1) / 2 := by
  rw [triangular]
  push_cast
  rfl

/-- T(n) mod 139 depends only on n mod 139: both double to n(n+1), and 2 is a unit mod 139. -/
theorem triangular_modSeq (n : ℤ) : (triangular (modSeq n) : ℤ) ≡ n * (n + 1) / 2 [ZMOD 139] := by
  have hmod : (modSeq n : ℤ) ≡ n [ZMOD 139] := by
    rw [modSeq_cast]
    exact Int.mod_modEq n 139
  have htwice : 2 * (triangular (modSeq n) : ℤ) ≡ 2 * (n * (n + 1) / 2) [ZMOD 139] := by
    rw [triangular_cast, two_mul_triangular, two_mul_triangular]
    exact hmod.mul (hmod.add_right 1)
  exact Int.ModEq.cancel_left_div_gcd (by decide) htwice

theorem phase_cast (u : Nat) (n : ℤ) : (phase u (modSeq n) : ℤ) = u * (n * (n + 1) / 2) % 139 := by
  rw [phase]
  push_cast
  exact (triangular_modSeq n).mul_left _

theorem phase_lt (u n : Nat) : phase u n < 139 := Nat.mod_lt _ (by decide)

theorem phase_mod (u n : Nat) : phase (u % 139) n = phase u n := Nat.mod_mul_mod u (triangular n) 139

theorem modSeq_add_seqLen (n : ℤ) : modSeq (n + 139) = modSeq n := congrArg Int.toNat (Int.add_emod_right n 139)

/-! ### The powers of W -/

/-- W (R300). -/
noncomputable def rootW : ℂ := exp (-(I * 2 * Real.pi / 139))

theorem rootW_ne_zero : rootW ≠ 0 := exp_ne_zero _

theorem rootW_zpow (z : ℤ) : rootW ^ z = exp (-(I * 2 * Real.pi * z / 139)) := by
  rw [rootW, ← exp_int_mul]
  congr 1
  ring

theorem rootW_pow (e : Nat) : rootW ^ e = exp (↑(-(2 * Real.pi * e / 139)) * I) := by
  rw [← zpow_natCast, rootW_zpow]
  congr 1
  push_cast
  ring

theorem rootW_pow_re (e : Nat) : (rootW ^ e).re = Real.cos (2 * Real.pi * e / 139) := by
  rw [rootW_pow, exp_ofReal_mul_I_re, Real.cos_neg]

theorem rootW_pow_im (e : Nat) : (rootW ^ e).im = -Real.sin (2 * Real.pi * e / 139) := by
  rw [rootW_pow, exp_ofReal_mul_I_im, Real.sin_neg]

theorem norm_rootW_pow (e : Nat) : ‖rootW ^ e‖ = 1 := by rw [rootW_pow, norm_exp_ofReal_mul_I]

theorem rootW_pow_seqLen : rootW ^ 139 = 1 := by
  rw [← zpow_natCast, rootW_zpow, exp_eq_one_iff]
  exact ⟨-1, by push_cast; ring⟩

theorem rootW_pow_mod (e : Nat) : rootW ^ (e % 139) = rootW ^ e := (pow_eq_pow_mod e rootW_pow_seqLen).symm

/-- An exponent counts mod 139, at every integer. -/
theorem rootW_zpow_eq_pow {z : ℤ} {e : Nat} (h : (e : ℤ) = z % 139) : rootW ^ z = rootW ^ e := by
  rw [← zpow_natCast rootW e, h]
  conv_lhs => rw [← Int.mul_ediv_add_emod z 139, zpow_add₀ rootW_ne_zero, zpow_mul]
  rw [show rootW ^ (139 : ℤ) = 1 from mod_cast rootW_pow_seqLen, one_zpow, one_mul]

/-- x_u(n) (R300) is W to the u T(n). -/
theorem rootSample_eq_zpow (u : Nat) (n : ℤ) :
    exp (-(I * Real.pi * u * n * (n + 1) / 139)) = rootW ^ (u * (n * (n + 1) / 2)) := by
  have htwice : (2 : ℂ) * ((n * (n + 1) / 2 : ℤ) : ℂ) = n * (n + 1) := mod_cast two_mul_triangular n
  rw [rootW_zpow, Int.cast_mul, Int.cast_natCast]
  congr 1
  linear_combination I * Real.pi * u / 139 * htwice

theorem rootSample_eq_pow (u : Nat) (n : ℤ) :
    exp (-(I * Real.pi * u * n * (n + 1) / 139)) = rootW ^ phase u (modSeq n) :=
  (rootSample_eq_zpow u n).trans (rootW_zpow_eq_pow (phase_cast u n))

/-- Settles O31. -/
theorem phaseIsTheRootSequence : Obligations.PhaseIsTheRootSequence := fun u n =>
  ⟨rootSample_eq_pow u n, phase_lt u _, phase_cast u n, phase_mod u _, modSeq_add_seqLen n⟩

/-! ### The terms of a coefficient (R305, R306) -/

theorem dftPhase_lt (u c k m : Nat) : dftPhase u c k m < 139 := Nat.mod_lt _ (by decide)

theorem dftPhase_mod (u c k m : Nat) : dftPhase (u % 139) c k m = dftPhase u c k m := by
  rw [dftPhase, phase_mod, dftPhase]

theorem dftPartial_mod (u c k n : Nat) : dftPartial (u % 139) c k n = dftPartial u c k n := by
  induction n with
  | zero => rfl
  | succ n ih => rw [dftPartial, ih, dftPhase_mod, dftPartial]

theorem dftPartial_eq_foldl (u c k n : Nat) :
    dftPartial u c k n = (List.range n).foldl (fun acc m => sampleAdd acc (rom (dftPhase u c k m))) 0#64 := by
  induction n with
  | zero => rfl
  | succ n ih => rw [dftPartial, ih, List.range_succ, List.foldl_append, List.foldl_cons, List.foldl_nil]

/-- Settles O34. -/
theorem dftEvalSumsInOrder : Obligations.DftEvalSumsInOrder := fun u c k =>
  ⟨dftPartial_eq_foldl u c k 139, dftPartial_mod u c k 139⟩

/-- Every term of the exact transform is a power of W, its exponent the one dft_eval uses. -/
theorem dftExact_eq_sum (u c k : Nat) : dftExact u c k = ∑ m ∈ Finset.range 139, rootW ^ dftPhase u c k m := by
  refine Finset.sum_congr rfl fun m _ => ?_
  have hroot := rootSample_eq_pow u ((m + c) % 139 : ℕ)
  have hkernel : exp (-(2 * I * Real.pi * m * k / 139)) = rootW ^ (m * k) := by
    rw [← zpow_natCast, rootW_zpow]
    congr 1
    push_cast
    ring
  have hindex : modSeq ((m + c) % 139 : ℕ) = (m + c) % 139 := by
    have hcast := modSeq_cast ((m + c) % 139 : ℕ)
    omega
  rw [hindex] at hroot
  rw [hkernel, dftPhase, rootW_pow_mod, pow_add, ← hroot]
  rfl

end Sys2Proof.Machine

namespace Sys2Proof.Machine

/-! The magnitude of the exact coefficients (41_sequence_generator.md R308). Their exponent is a quadratic of the
summation index over the field of 139 elements, and a sum of a primitive character over the values of a quadratic has
the square root of the field's size as magnitude. -/

open Finset

/-! ### Quadratic exponential sums -/

section Quadratic

variable {F : Type*} [Field F] [Fintype F] [DecidableEq F]

/-- The difference of a quadratic at two arguments is linear in the one for a fixed distance `d`, so the double sum of
|S|^2 collapses to the diagonal. -/
theorem norm_sq_sum_quadratic {ψ : AddChar F ℂ} (hψ : ψ.IsPrimitive) (htwo : (2 : F) ≠ 0) {a : F} (ha : a ≠ 0)
    (b e : F) :
    ‖∑ x, ψ (a * x ^ 2 + b * x + e)‖ ^ 2 = Fintype.card F := by
  have hshift (y d : F) : ψ (a * (y + d) ^ 2 + b * (y + d) + e) * starRingEnd ℂ (ψ (a * y ^ 2 + b * y + e)) =
      ψ (a * d ^ 2 + b * d) * ψ (y * (2 * a * d)) := by
    rw [← AddChar.map_neg_eq_conj, ← AddChar.map_add_eq_mul, ← AddChar.map_add_eq_mul]
    congr 1
    ring
  have hlinear (d : F) : ∑ y, ψ (y * (2 * a * d)) = if d = 0 then (Fintype.card F : ℂ) else 0 := by
    rw [AddChar.sum_mulShift _ hψ]
    simp [htwo, ha]
  rw [← Complex.ofReal_inj, Complex.ofReal_pow, ← Complex.mul_conj']
  calc (∑ x, ψ (a * x ^ 2 + b * x + e)) * starRingEnd ℂ (∑ y, ψ (a * y ^ 2 + b * y + e))
      = ∑ y, ∑ x, ψ (a * x ^ 2 + b * x + e) * starRingEnd ℂ (ψ (a * y ^ 2 + b * y + e)) := by
        rw [map_sum, sum_mul_sum, sum_comm]
    _ = ∑ y, ∑ d, ψ (a * d ^ 2 + b * d) * ψ (y * (2 * a * d)) :=
        sum_congr rfl fun y _ => (Fintype.sum_equiv (Equiv.addLeft y) _ _ fun d => (hshift y d).symm).symm
    _ = ∑ d, ψ (a * d ^ 2 + b * d) * if d = 0 then (Fintype.card F : ℂ) else 0 := by
        rw [sum_comm]
        simp_rw [← mul_sum, hlinear]
    _ = ((Fintype.card F : ℝ) : ℂ) := by simp

end Quadratic

/-! ### The coefficients as character sums -/

theorem prime_seqLen : Nat.Prime 139 := by norm_num

theorem rootW_pow_eq_stdAddChar (e : Nat) : rootW ^ e = ZMod.stdAddChar (-(e : ZMod 139)) := by
  have h := ZMod.stdAddChar_coe (N := 139) (-(e : ℤ))
  push_cast at h
  rw [h, ← zpow_natCast, rootW_zpow]
  congr 1
  push_cast
  ring

theorem sum_range_zmod (f : ZMod 139 → ℂ) : ∑ m ∈ range 139, f m = ∑ x, f x := by
  rw [← Fin.sum_univ_eq_sum_range fun m => f m]
  exact sum_congr rfl fun x _ => congrArg f (Fin.cast_val_eq_self x)

theorem triangular_zmod (n : Nat) : (triangular n : ZMod 139) = 70 * (n * (n + 1)) := by
  have htwice : 2 * triangular n = n * (n + 1) := by
    have h := two_mul_triangular n
    rw [← triangular_cast] at h
    exact_mod_cast h
  have hcast := congrArg (Nat.cast (R := ZMod 139)) htwice
  push_cast at hcast
  have hhalf : (70 * 2 : ZMod 139) = 1 := by decide
  rw [← hcast, ← mul_assoc, hhalf, one_mul]

theorem dftPhase_zmod (u c k m : Nat) : (dftPhase u c k m : ZMod 139) = u * (70 * ((m + c) * (m + c + 1))) + m * k := by
  rw [dftPhase, ZMod.natCast_mod, Nat.cast_add, phase, ZMod.natCast_mod, Nat.cast_mul, triangular_zmod]
  push_cast [ZMod.natCast_mod]
  rfl

/-- A coefficient as a character sum of a quadratic, its leading coefficient -u / 2. -/
theorem dftExact_eq_charSum (u c k : Nat) : dftExact u c k = ∑ x : ZMod 139, ZMod.stdAddChar (N := 139)
    (-(70 * u) * x ^ 2 + -(70 * u * (2 * c + 1) + k) * x + -(70 * u * (c * (c + 1)))) := by
  rw [dftExact_eq_sum, ← sum_range_zmod]
  refine sum_congr rfl fun m _ => ?_
  rw [rootW_pow_eq_stdAddChar, dftPhase_zmod]
  congr 1
  ring

theorem norm_dftExact {u : Nat} (hu : u % 139 ≠ 0) (c k : Nat) : ‖dftExact u c k‖ = Real.sqrt 139 := by
  have hhalf : (70 : ZMod 139) ≠ 0 := by decide
  have htwo : (2 : ZMod 139) ≠ 0 := by decide
  have : Fact (Nat.Prime 139) := ⟨prime_seqLen⟩
  have hu' : (u : ZMod 139) ≠ 0 := by rwa [Ne, ZMod.natCast_eq_zero_iff, Nat.dvd_iff_mod_eq_zero]
  have hsq := norm_sq_sum_quadratic (ZMod.isPrimitive_stdAddChar 139) htwo (neg_ne_zero.2 (mul_ne_zero hhalf hu'))
    (-(70 * u * (2 * c + 1) + k)) (-(70 * u * (c * (c + 1))))
  rw [← dftExact_eq_charSum, ZMod.card, Nat.cast_ofNat] at hsq
  rw [← hsq, Real.sqrt_sq (norm_nonneg _)]

theorem dftExact_of_dvd {u : Nat} (hu : u % 139 = 0) (c : Nat) {k : Nat} (hk : k < 139) :
    dftExact u c k = if k = 0 then 139 else 0 := by
  have hu' : (u : ZMod 139) = 0 := (ZMod.natCast_eq_zero_iff u 139).2 (Nat.dvd_of_mod_eq_zero hu)
  have hk' : -(k : ZMod 139) = 0 ↔ k = 0 := by
    rw [neg_eq_zero, ZMod.natCast_eq_zero_iff]
    exact ⟨fun h => Nat.eq_zero_of_dvd_of_lt h hk, fun h => h ▸ dvd_zero _⟩
  have hsum := AddChar.sum_mulShift (-(k : ZMod 139)) (ZMod.isPrimitive_stdAddChar 139)
  rw [dftExact_eq_charSum, hu']
  simpa [hk', ZMod.card, mul_comm] using hsum

end Sys2Proof.Machine

namespace Sys2Proof.Machine

/-! Rounding to binary32 (00_scope.md R26): how far it moves a number, and what it keeps: a bound by an integer, and
being a multiple of a power of two. -/

variable {x : Half} {r : ℝ} {n : ℤ} {m c d : Nat}

/-! ### What RN32 keeps -/

theorem abs_sub_le_abs_sub_iff {a b r : ℝ} (h : a < b) : |a - r| ≤ |b - r| ↔ 2 * r ≤ a + b := by
  rw [← sq_le_sq, ← sub_nonneg, show (b - r) ^ 2 - (a - r) ^ 2 = (b - a) * (a + b - 2 * r) by ring,
    mul_nonneg_iff_of_pos_left (sub_pos.2 h), sub_nonneg]

theorem abs_sub_lt_abs_sub_iff {a b r : ℝ} (h : a < b) : |a - r| < |b - r| ↔ 2 * r < a + b := by
  rw [← sq_lt_sq, ← sub_pos, show (b - r) ^ 2 - (a - r) ^ 2 = (b - a) * (a + b - 2 * r) by ring,
    mul_pos_iff_of_pos_left (sub_pos.2 h), sub_pos]

theorem value32_zero : value32 0#32 = 0 := by
  have hzero : toScaled 0#32 = 0 := rfl
  rw [value32, hzero, Int.cast_zero, zero_div]

theorem value32_ne {y : Half} (h : toScaled y ≠ toScaled x) : value32 y ≠ value32 x := by
  rw [value32, value32, Ne, div_left_inj' (by positivity), Int.cast_inj]
  exact h

theorem IsRN32.abs_sub_le (h : IsRN32 x r) {y : Half} (hy : finite32 y) : |value32 x - r| ≤ |value32 y - r| := by
  obtain ⟨-, -, hnear⟩ := h
  by_cases heq : toScaled y = toScaled x
  · rw [value32, value32, heq]
  · obtain hlt | ⟨heq, -⟩ := hnear y hy heq
    · exact hlt.le
    · exact heq.le

/-- Numbers that round alike have all between them round alike: the half-way points lie outside. -/
theorem isRN32_of_between {r₁ r₂ : ℝ} (h₁ : IsRN32 x r₁) (h₂ : IsRN32 x r₂) (hlo : r₁ < r) (hhi : r < r₂) (hr : r ≠ 0) :
    IsRN32 x r := by
  refine ⟨h₁.1, fun hzero => absurd hzero hr, fun y hy hne => .inl ?_⟩
  obtain hlt | hgt := (value32_ne hne).lt_or_gt
  · have hmid := h₁.abs_sub_le hy
    rw [← not_lt, abs_sub_lt_abs_sub_iff hlt, not_lt] at hmid
    rw [← not_le, abs_sub_le_abs_sub_iff hlt, not_le]
    linarith
  · have hmid := h₂.abs_sub_le hy
    rw [abs_sub_le_abs_sub_iff hgt] at hmid
    rw [abs_sub_lt_abs_sub_iff hgt]
    linarith

/-- The integers below 2^8 are binary32 values. -/
theorem magOf_roundMag_integer : ∀ c < 2 ^ 8, magOf (roundMag (c * 2 ^ 149)) = c * 2 ^ 149 := by decide +kernel

theorem exists_integer_half {z : ℤ} (hz : z.natAbs < 2 ^ 8) : ∃ y, finite32 y ∧ value32 y = z := by
  have habs : (z * 2 ^ 149).natAbs = z.natAbs * 2 ^ 149 := by rw [Int.natAbs_mul, Int.natAbs_pow]; rfl
  have hlt : (z * 2 ^ 149).natAbs < 2 ^ 157 := by omega
  refine ⟨roundScaled (z * 2 ^ 149), finite32_roundScaled hlt, ?_⟩
  have hexact : toScaled (roundScaled (z * 2 ^ 149)) = z * 2 ^ 149 := by
    rw [toScaled_roundScaled hlt, habs, magOf_roundMag_integer _ hz]
    split <;> omega
  rw [value32, hexact, Int.cast_mul, Int.cast_pow, Int.cast_ofNat, mul_div_cancel_right₀ _ (by positivity)]

/-- An integer bound on a number is one on its rounding. -/
theorem IsRN32.abs_le (h : IsRN32 x r) (hc : c < 2 ^ 8) (hr : |r| ≤ c) : |value32 x| ≤ c := by
  obtain ⟨y₁, hy₁, hv₁⟩ := exists_integer_half (z := -c) (by omega)
  obtain ⟨y₂, hy₂, hv₂⟩ := exists_integer_half (z := c) (by omega)
  have hlo := h.abs_sub_le hy₁
  have hhi := h.abs_sub_le hy₂
  rw [hv₁] at hlo
  rw [hv₂] at hhi
  push_cast at hlo hhi
  rw [abs_le'] at hr ⊢
  constructor
  · by_contra hgt
    rw [← not_lt, abs_sub_lt_abs_sub_iff (not_le.1 hgt)] at hhi
    linarith
  · by_contra hgt
    rw [abs_sub_le_abs_sub_iff (by linarith)] at hlo
    linarith

/-! ### The rounding of a scaled sum -/

/-- A magnitude below 2^8 moves by at most half of 2^-16. -/
theorem abs_magOf_roundMag_sub_le (h : m < 2 ^ 157) : |(magOf (roundMag m) : ℤ) - m| ≤ 2 ^ 132 := by
  obtain hm | hm := Nat.lt_or_ge m (2 ^ 24)
  · rw [roundMag_of_lt hm, magOf_of_lt hm, sub_self, abs_zero]
    positivity
  · obtain ⟨k, q, r, up, hk, hq, hq', hr, rfl, hround, hup⟩ := roundMag_of_ge hm
    have hlog : (q * 2 ^ (k + 1) + r).log2 < 157 := (Nat.log2_lt (by omega)).2 h
    have hhalf : 2 ^ k ≤ 2 ^ 132 := Nat.pow_le_pow_right (by decide) (by omega)
    rw [hround, magOf_coefficient (by omega) (by omega) (by omega), abs_le]
    simp only [pow_succ, add_mul] at *
    generalize 2 ^ k = half at *
    obtain ⟨rfl, hup⟩ | ⟨rfl, hup⟩ := hup <;> push_cast <;> omega

theorem pow_two_dvd_magOf_roundMag (h : m < 2 ^ 157) (hdvd : 2 ^ d ∣ m) : 2 ^ d ∣ magOf (roundMag m) := by
  obtain hm | hm := Nat.lt_or_ge m (2 ^ 24)
  · rwa [roundMag_of_lt hm, magOf_of_lt hm]
  · obtain ⟨k, q, r, up, hk, hq, hq', hr, rfl, hround, hup⟩ := roundMag_of_ge hm
    have hlog : (q * 2 ^ (k + 1) + r).log2 < 157 := (Nat.log2_lt (by omega)).2 h
    rw [hround, magOf_coefficient (by omega) (by omega) (by omega)]
    obtain hd | hd := Nat.le_total d (k + 1)
    · exact (Nat.pow_dvd_pow 2 hd).mul_left _
    · -- The exact sum has no digits below 2^d, so there is nothing to round.
      have hrest : 2 ^ (k + 1) ∣ r :=
        (Nat.dvd_add_right (Nat.dvd_mul_left _ q)).1 ((Nat.pow_dvd_pow 2 hd).trans hdvd)
      obtain rfl : r = 0 := Nat.eq_zero_of_dvd_of_lt hrest hr
      have hpos := Nat.two_pow_pos k
      obtain rfl : up = 0 := by omega
      exact hdvd

theorem exponent_roundMag_pos (h : m < 2 ^ 157) (hm : 2 ^ 24 ≤ m) : 0 < roundMag m / 2 ^ 23 % 256 := by
  have hfin := roundMag_lt h
  obtain ⟨k, q, r, up, -, hq, -, -, -, hround, -⟩ := roundMag_of_ge hm
  omega

theorem abs_toScaled_roundScaled_sub_le (h : n.natAbs < 2 ^ 157) : |toScaled (roundScaled n) - n| ≤ 2 ^ 132 := by
  have hmag := abs_magOf_roundMag_sub_le h
  rw [toScaled_roundScaled h]
  rw [abs_le] at hmag ⊢
  split <;> omega

theorem pow_two_dvd_toScaled_roundScaled (h : n.natAbs < 2 ^ 157) (hdvd : (2 : ℤ) ^ d ∣ n) :
    (2 : ℤ) ^ d ∣ toScaled (roundScaled n) := by
  have hnat : 2 ^ d ∣ n.natAbs := by simpa using Int.natAbs_dvd_natAbs.2 hdvd
  have hmag : (2 : ℤ) ^ d ∣ magOf (roundMag n.natAbs) := mod_cast pow_two_dvd_magOf_roundMag h hnat
  rw [toScaled_roundScaled h]
  split
  · exact hmag.neg_right
  · exact hmag

/-- A multiple of 2^-125 rounds to +0 or to a normal number. -/
theorem roundScaled_not_subnormal (h : n.natAbs < 2 ^ 157) (hdvd : (2 : ℤ) ^ 24 ∣ n)
    (hexp : (roundScaled n).toNat / 2 ^ 23 % 256 = 0) : roundScaled n = 0#32 := by
  obtain rfl | hn := eq_or_ne n 0
  · rfl
  · have hpos := exponent_roundMag_pos h (by omega)
    have hfin := roundMag_lt h
    rw [toNat_roundScaled h] at hexp
    split at hexp <;> omega

end Sys2Proof.Machine

namespace Sys2Proof.Machine

/-! The twiddle ROM (41_sequence_generator.md R301, R308). The powers of W are computed in fixed point, with an error
that grows linearly with the exponent; an entry is the correctly rounded power when the whole neighbourhood left by that
error rounds to it. -/

open Complex

/-! ### W in fixed point -/

/-- The angle -2 pi / 139 of W in units of 2^-64, rounded. -/
def fixedAngle : ℤ := -833843966397366658

/-- W in units of 2^-64, each part rounded. -/
def fixedW : ℤ × ℤ := (18427901253138016741, -833560031151191708)

/-- The complex number a pair stands for, each part in units of 2^-64. -/
noncomputable def fixedValue (z : ℤ × ℤ) : ℂ := ⟨z.1 / 2 ^ 64, z.2 / 2 ^ 64⟩

theorem fixedAngle_near : |-(2 * Real.pi / 139) - fixedAngle / 2 ^ 64| ≤ 1 / 2 ^ 64 := by
  have hlo := Real.pi_gt_d20
  have hhi := Real.pi_lt_d20
  rw [abs_le, fixedAngle]
  constructor <;> norm_num <;> linarith

/-- The first ten terms of exp(j x). -/
noncomputable def expSeries (x : ℝ) : ℂ := ∑ m ∈ Finset.range 10, (↑x * I) ^ m / (m.factorial : ℂ)

theorem expSeries_eq (x : ℝ) : expSeries x =
    ⟨1 - x ^ 2 / 2 + x ^ 4 / 24 - x ^ 6 / 720 + x ^ 8 / 40320,
      x - x ^ 3 / 6 + x ^ 5 / 120 - x ^ 7 / 5040 + x ^ 9 / 362880⟩ := by
  rw [expSeries, mk_eq_add_mul_I]
  push_cast
  simp only [Finset.sum_range_succ, Finset.sum_range_zero, mul_pow, I_pow_eq_pow_mod 4, I_pow_eq_pow_mod 5,
    I_pow_eq_pow_mod 6, I_pow_eq_pow_mod 7, I_pow_eq_pow_mod 8, I_pow_eq_pow_mod 9, I_sq, I_pow_three, Nat.factorial]
  norm_num
  ring

theorem norm_exp_sub_expSeries_le {x : ℝ} (hx : |x| ≤ 1 / 16) : ‖exp (x * I) - expSeries x‖ ≤ 1 / 2 ^ 60 := by
  have hnorm : ‖(x * I : ℂ)‖ = |x| := by simp
  refine (exp_bound (by rw [hnorm]; linarith) (by decide)).trans ?_
  rw [hnorm]
  calc _ ≤ (1 / 16 : ℝ) ^ 10 * (((10 : ℕ).succ : ℝ) * ((Nat.factorial 10 : ℝ) * (10 : ℕ))⁻¹) := by gcongr
    _ ≤ 1 / 2 ^ 60 := by norm_num [Nat.factorial]

/-- Turning by a smaller angle moves a point of the unit circle by no more than the angle between them. -/
theorem norm_exp_sub_exp_le (x y : ℝ) : ‖exp (x * I) - exp (y * I)‖ ≤ |x - y| := by
  have hfactor : exp (x * I) - exp (y * I) = exp (y * I) * (exp (I * ↑(x - y)) - 1) := by
    rw [mul_sub, ← exp_add, mul_one]
    congr 2
    push_cast
    ring
  rw [hfactor, norm_mul, norm_exp_ofReal_mul_I, one_mul]
  exact Real.norm_exp_I_mul_ofReal_sub_one_le

theorem norm_expSeries_sub_fixedW_le : ‖expSeries (fixedAngle / 2 ^ 64) - fixedValue fixedW‖ ≤ 2 / 2 ^ 64 := by
  rw [expSeries_eq, fixedValue, fixedW]
  refine (norm_le_abs_re_add_abs_im _).trans ?_
  norm_num [fixedAngle, abs_le]

theorem norm_rootW_sub_fixedW_le : ‖rootW - fixedValue fixedW‖ ≤ 24 / 2 ^ 64 := by
  have hrootW : rootW = exp (↑(-(2 * Real.pi / 139)) * I) := by simpa using rootW_pow 1
  have hangle := (norm_exp_sub_exp_le (-(2 * Real.pi / 139)) (fixedAngle / 2 ^ 64)).trans fixedAngle_near
  have hseries := norm_exp_sub_expSeries_le (x := fixedAngle / 2 ^ 64) (by norm_num [fixedAngle, abs_le])
  have hvalue := norm_expSeries_sub_fixedW_le
  have houter := norm_sub_le_norm_sub_add_norm_sub rootW (expSeries (fixedAngle / 2 ^ 64)) (fixedValue fixedW)
  have hinner := norm_sub_le_norm_sub_add_norm_sub rootW (exp (↑(fixedAngle / 2 ^ 64 : ℝ) * I))
    (expSeries (fixedAngle / 2 ^ 64))
  rw [← hrootW] at hangle
  linarith

/-! ### The powers of W in fixed point -/

/-- The product in units of 2^-64, each part rounded down. -/
def fixedMul (z w : ℤ × ℤ) : ℤ × ℤ := ((z.1 * w.1 - z.2 * w.2) / 2 ^ 64, (z.1 * w.2 + z.2 * w.1) / 2 ^ 64)

/-- W^p as these products give it. -/
def fixedPow : Nat → ℤ × ℤ
  | 0 => (2 ^ 64, 0)
  | p + 1 => fixedMul (fixedPow p) fixedW

theorem abs_div_sub_ediv_le (a : ℤ) : |(a : ℝ) / 2 ^ 128 - (a / 2 ^ 64 : ℤ) / 2 ^ 64| ≤ 1 / 2 ^ 64 := by
  have hlo : ((a / 2 ^ 64 * 2 ^ 64 : ℤ) : ℝ) ≤ a := by exact_mod_cast Int.ediv_mul_le a (by decide : (2 : ℤ) ^ 64 ≠ 0)
  have hhi : (a : ℝ) ≤ ((a / 2 ^ 64 * 2 ^ 64 + 2 ^ 64 : ℤ) : ℝ) := by
    have h := Int.lt_ediv_add_one_mul_self a (by decide : (0 : ℤ) < 2 ^ 64)
    exact_mod_cast (by omega : a ≤ a / 2 ^ 64 * 2 ^ 64 + 2 ^ 64)
  push_cast at hlo hhi
  rw [abs_le]
  constructor <;> linarith

theorem norm_fixedMul_le (z w : ℤ × ℤ) : ‖fixedValue z * fixedValue w - fixedValue (fixedMul z w)‖ ≤ 2 / 2 ^ 64 := by
  have hre := abs_div_sub_ediv_le (z.1 * w.1 - z.2 * w.2)
  have him := abs_div_sub_ediv_le (z.1 * w.2 + z.2 * w.1)
  refine (norm_le_abs_re_add_abs_im _).trans ?_
  simp only [fixedValue, fixedMul, sub_re, sub_im, mul_re, mul_im]
  push_cast at hre him ⊢
  ring_nf at *
  linarith

theorem fixedValue_fixedPow_zero : fixedValue (fixedPow 0) = 1 := by
  apply Complex.ext <;> norm_num [fixedValue, fixedPow]

theorem norm_rootW_pow_sub_le {p : Nat} (hp : p ≤ 139) : ‖rootW ^ p - fixedValue (fixedPow p)‖ ≤ p * (32 / 2 ^ 64) := by
  induction p with
  | zero => simp [fixedValue_fixedPow_zero]
  | succ p ih =>
    have hle : (p : ℝ) ≤ 139 := by exact_mod_cast (by omega : p ≤ 139)
    have hprev := ih (by omega)
    have hW := norm_rootW_sub_fixedW_le
    have hmul := norm_fixedMul_le (fixedPow p) fixedW
    have hsize : ‖fixedValue (fixedPow p)‖ ≤ 5 / 4 := by
      have htri := norm_le_norm_add_norm_sub (rootW ^ p) (fixedValue (fixedPow p))
      rw [norm_rootW_pow] at htri
      linarith
    have hsplit : rootW ^ (p + 1) - fixedValue (fixedPow (p + 1)) =
        (rootW ^ p - fixedValue (fixedPow p)) * rootW + fixedValue (fixedPow p) * (rootW - fixedValue fixedW) +
          (fixedValue (fixedPow p) * fixedValue fixedW - fixedValue (fixedMul (fixedPow p) fixedW)) := by
      rw [fixedPow]
      ring
    have hrootW : ‖rootW‖ = 1 := by simpa using norm_rootW_pow 1
    rw [hsplit]
    calc _ ≤ _ := norm_add₃_le
      _ ≤ p * (32 / 2 ^ 64) * 1 + 5 / 4 * (24 / 2 ^ 64) + 2 / 2 ^ 64 := by
        rw [norm_mul, norm_mul, hrootW]
        gcongr
      _ = ((p + 1 : ℕ) : ℝ) * (32 / 2 ^ 64) := by
        push_cast
        ring

/-! ### The entries of the ROM -/

/-- The numbers within 2^-51 of `a` x 2^-64, in units of 2^-149, avoid 0, round to `x`, and are within 2^-25 of it. -/
abbrev RoundsTo (x : Half) (a : ℤ) : Prop :=
  let lo := (a - 2 ^ 13) * 2 ^ 85
  let hi := (a + 2 ^ 13) * 2 ^ 85
  (0 < lo ∨ hi < 0) ∧ lo.natAbs < 2 ^ 157 ∧ hi.natAbs < 2 ^ 157 ∧ roundScaled lo = x ∧ roundScaled hi = x ∧
    toScaled x - 2 ^ 124 ≤ lo ∧ hi ≤ toScaled x + 2 ^ 124

/-- A number known to 2^-51 whose neighbourhood rounds to one value rounds to it. -/
theorem RoundsTo.isRN32 {x : Half} {a : ℤ} {r : ℝ} (h : RoundsTo x a) (hr : |r - a / 2 ^ 64| < 2 ^ 13 / 2 ^ 64) :
    IsRN32 x r ∧ |value32 x - r| ≤ 1 / 2 ^ 25 := by
  obtain ⟨hsign, hlo, hhi, hxlo, hxhi, hnlo, hnhi⟩ := h
  have hlo' : (((a - 2 ^ 13) * 2 ^ 85 : ℤ) : ℝ) / 2 ^ 149 < r := by
    push_cast
    linarith [(abs_lt.1 hr).1]
  have hhi' : r < (((a + 2 ^ 13) * 2 ^ 85 : ℤ) : ℝ) / 2 ^ 149 := by
    push_cast
    linarith [(abs_lt.1 hr).2]
  generalize (a - 2 ^ 13) * 2 ^ 85 = lo at *
  generalize (a + 2 ^ 13) * 2 ^ 85 = hi at *
  constructor
  · refine isRN32_of_between (hxlo ▸ isRN32_roundScaled hlo) (hxhi ▸ isRN32_roundScaled hhi) hlo' hhi' ?_
    rintro rfl
    rw [div_lt_iff₀ (by positivity), zero_mul, Int.cast_lt_zero] at hlo'
    rw [lt_div_iff₀ (by positivity), zero_mul, Int.cast_pos] at hhi'
    omega
  · have hnlo' : (toScaled x : ℝ) - 2 ^ 124 ≤ lo := by exact_mod_cast hnlo
    have hnhi' : (hi : ℝ) ≤ toScaled x + 2 ^ 124 := by exact_mod_cast hnhi
    rw [value32, abs_le]
    constructor <;> linarith

theorem rom_re_roundsTo : ∀ p < 139, RoundsTo (re (rom p)) (fixedPow p).1 := by decide +kernel

theorem rom_im_roundsTo : ∀ p < 139, p ≠ 0 → RoundsTo (im (rom p)) (fixedPow p).2 := by decide +kernel

theorem rom_zero : rom 0 = 0x000000003F800000#64 := rfl

theorem norm_rootW_pow_sub_lt {p : Nat} (hp : p < 139) : ‖rootW ^ p - fixedValue (fixedPow p)‖ < 2 ^ 13 / 2 ^ 64 := by
  have hle : (p : ℝ) ≤ 139 := by exact_mod_cast hp.le
  have h := norm_rootW_pow_sub_le hp.le
  linarith

theorem rom_re_isRN32 {p : Nat} (hp : p < 139) :
    IsRN32 (re (rom p)) (rootW ^ p).re ∧ |value32 (re (rom p)) - (rootW ^ p).re| ≤ 1 / 2 ^ 25 :=
  (rom_re_roundsTo p hp).isRN32 ((abs_re_le_norm _).trans_lt (norm_rootW_pow_sub_lt hp))

theorem isRN32_zero : IsRN32 0#32 0 := by
  have hzero : roundScaled 0 = 0#32 := rfl
  simpa [hzero] using isRN32_roundScaled (n := 0) (by decide)

theorem rom_im_isRN32 {p : Nat} (hp : p < 139) :
    IsRN32 (im (rom p)) (rootW ^ p).im ∧ |value32 (im (rom p)) - (rootW ^ p).im| ≤ 1 / 2 ^ 25 := by
  obtain rfl | hpos := eq_or_ne p 0
  · have him : im (rom 0) = 0#32 := rfl
    rw [him, pow_zero, one_im, value32_zero]
    exact ⟨isRN32_zero, by norm_num⟩
  · exact (rom_im_roundsTo p hp hpos).isRN32 ((abs_im_le_norm _).trans_lt (norm_rootW_pow_sub_lt hp))

/-- The exponents of the ROM are far above 0, but for the one +0. -/
theorem rom_exponent : ∀ p < 139, 24 < (re (rom p)).toNat / 2 ^ 23 % 256 ∧
    (im (rom p) = 0#32 ∨ 24 < (im (rom p)).toNat / 2 ^ 23 % 256) := by decide +kernel

/-- Settles O32. -/
theorem romIsCorrectlyRounded : Obligations.RomIsCorrectlyRounded := by
  refine ⟨rom_zero, fun p hp => ?_⟩
  obtain ⟨hre, hdre⟩ := rom_re_isRN32 hp
  obtain ⟨him, hdim⟩ := rom_im_isRN32 hp
  obtain ⟨here, heim⟩ := rom_exponent p hp
  rw [rootW_pow_re] at hre hdre
  rw [rootW_pow_im] at him hdim
  rw [sub_neg_eq_add] at hdim
  refine ⟨hre, him, hdre, hdim, ?_⟩
  rintro x (rfl | rfl) hx
  · exact absurd hx (by omega)
  · exact heim.resolve_right (by omega)

/-- Settles O37: the ROM is within 2^-25 of the unit circle in each component. -/
theorem rootSamplesHaveUnitMagnitude : Obligations.RootSamplesHaveUnitMagnitude := by
  intro p hp
  obtain ⟨-, hre⟩ := rom_re_isRN32 hp
  obtain ⟨-, him⟩ := rom_im_isRN32 hp
  have hnorm : Real.sqrt (value32 (re (rom p)) ^ 2 + value32 (im (rom p)) ^ 2) =
      ‖(⟨value32 (re (rom p)), value32 (im (rom p))⟩ : ℂ)‖ := by rw [norm_eq_sqrt_sq_add_sq]
  have hdist := abs_norm_sub_norm_le (⟨value32 (re (rom p)), value32 (im (rom p))⟩ : ℂ) (rootW ^ p)
  rw [norm_rootW_pow] at hdist
  rw [hnorm]
  refine (hdist.trans (norm_le_abs_re_add_abs_im _)).trans_lt ?_
  rw [sub_re, sub_im]
  linarith

end Sys2Proof.Machine

namespace Sys2Proof.Machine

/-! dft_eval against the exact transform (41_sequence_generator.md R306 to R308). A component of dft_eval is a sum of
binary32 numbers in ascending order; its terms are the correctly rounded components of powers of W. -/

/-! ### Sums of binary32 numbers -/

/-- The sum of the first `n` terms, ascending from +0 (R306), in one component. -/
def sum32 (h : Nat → Half) : Nat → Half
  | 0 => 0#32
  | n + 1 => f32Add (sum32 h n) (h n)

theorem re_zero : re 0#64 = 0#32 := by decide

theorem im_zero : im 0#64 = 0#32 := by decide

theorem re_dftPartial (u c k n : Nat) : re (dftPartial u c k n) = sum32 (fun m => re (rom (dftPhase u c k m))) n := by
  induction n with
  | zero => exact re_zero
  | succ n ih => rw [dftPartial, sampleAdd, re_cplx, ih, sum32]

theorem im_dftPartial (u c k n : Nat) : im (dftPartial u c k n) = sum32 (fun m => im (rom (dftPhase u c k m))) n := by
  induction n with
  | zero => exact im_zero
  | succ n ih => rw [dftPartial, sampleAdd, im_cplx, ih, sum32]

/-- What R301 says of a component of a ROM entry that stands for the real `r`. -/
structure RomPart (x : Half) (r : ℝ) : Prop where
  bound : |value32 x| ≤ 1
  near : |value32 x - r| ≤ 1 / 2 ^ 25
  multiple : (2 : ℤ) ^ 24 ∣ toScaled x

/-- A component of a partial sum: finite, at most its number of terms, no subnormal, and a multiple of 2^-125. -/
structure PartialSum (x : Half) (n : Nat) : Prop where
  finite : finite32 x
  bound : |value32 x| ≤ n
  normal : x.toNat / 2 ^ 23 % 256 = 0 → x = 0#32
  multiple : (2 : ℤ) ^ 24 ∣ toScaled x

theorem PartialSum.zero : PartialSum 0#32 0 where
  finite := by decide
  bound := by simp [value32_zero]
  normal := fun _ => rfl
  multiple := dvd_zero _

theorem PartialSum.abs_add_bounds {x y : Half} {n : Nat} (hn : n < 139) (hx : PartialSum x n) (hy : |value32 y| ≤ 1) :
    |value32 x + value32 y| ≤ (n + 1 : ℕ) ∧ |value32 x + value32 y| < 2 ^ 8 := by
  have hsum := (abs_add_le (value32 x) (value32 y)).trans (add_le_add hx.bound hy)
  have hn' : (n : ℝ) + 1 ≤ 139 := by exact_mod_cast hn
  push_cast
  exact ⟨hsum, by linarith⟩

theorem PartialSum.add {x y : Half} {n : Nat} (hn : n < 139) (hx : PartialSum x n) (hy : |value32 y| ≤ 1)
    (hmul : (2 : ℤ) ^ 24 ∣ toScaled y) : PartialSum (f32Add x y) (n + 1) := by
  obtain ⟨hle, hlt⟩ := hx.abs_add_bounds hn hy
  rw [value32_add] at hle hlt
  have hscaled := natAbs_lt_of_scaled hlt
  have hdvd := dvd_add hx.multiple hmul
  exact {
    finite := finite32_roundScaled hscaled
    bound := (isRN32_roundScaled hscaled).abs_le (by omega) hle
    normal := roundScaled_not_subnormal hscaled hdvd
    multiple := pow_two_dvd_toScaled_roundScaled hscaled hdvd }

/-- Each addition moves the sum by at most 2^-17, half the spacing of binary32 values below 2^8. -/
theorem abs_f32Add_sub_le {x y : Half} (hsum : |value32 x + value32 y| < 2 ^ 8) :
    |value32 (f32Add x y) - (value32 x + value32 y)| ≤ 1 / 2 ^ 17 := by
  rw [value32_add] at hsum ⊢
  have hround : |((toScaled (f32Add x y) - (toScaled x + toScaled y) : ℤ) : ℝ)| ≤ 2 ^ 132 := by
    exact_mod_cast abs_toScaled_roundScaled_sub_le (natAbs_lt_of_scaled hsum)
  rw [value32, ← sub_div, ← Int.cast_sub, abs_div, abs_of_pos (by positivity : (0 : ℝ) < 2 ^ 149),
    div_le_iff₀ (by positivity)]
  linarith

section Sum

variable {h : Nat → Half} {r : Nat → ℝ}

theorem sum32_partialSum (hh : ∀ m, RomPart (h m) (r m)) {n : Nat} (hn : n ≤ 139) : PartialSum (sum32 h n) n := by
  induction n with
  | zero => exact .zero
  | succ n ih => exact (ih (by omega)).add (by omega) (hh n).bound (hh n).multiple

/-- The errors of the terms and of the additions add up. -/
theorem abs_sum32_sub_le (hh : ∀ m, RomPart (h m) (r m)) {n : Nat} (hn : n ≤ 139) :
    |value32 (sum32 h n) - ∑ m ∈ Finset.range n, r m| ≤ n * (1 / 2 ^ 25 + 1 / 2 ^ 17) := by
  induction n with
  | zero => simp [sum32, value32_zero]
  | succ n ih =>
    obtain ⟨-, hlt⟩ := (sum32_partialSum hh (by omega : n ≤ 139)).abs_add_bounds hn (hh n).bound
    have hprev := abs_le.1 (ih (by omega))
    have hterm := abs_le.1 (hh n).near
    have hadd := abs_le.1 (abs_f32Add_sub_le hlt)
    rw [Finset.sum_range_succ, sum32, abs_le]
    push_cast
    constructor <;> linarith

theorem abs_sum32_seqLen_sub_le (hh : ∀ m, RomPart (h m) (r m)) :
    |value32 (sum32 h 139) - ∑ m ∈ Finset.range 139, r m| ≤ 1 / 2 ^ 9 :=
  (abs_sum32_sub_le hh le_rfl).trans (by norm_num)

end Sum

/-! ### The terms of dft_eval -/

theorem pow_two_dvd_toScaled {x : Half} (h : x = 0#32 ∨ 24 < x.toNat / 2 ^ 23 % 256) : (2 : ℤ) ^ 24 ∣ toScaled x := by
  obtain rfl | h := h
  · exact dvd_zero _
  · have hmag : (2 : ℤ) ^ 24 ∣ magOf x.toNat := by
      rw [magOf, if_neg (by omega)]
      exact_mod_cast (Nat.pow_dvd_pow 2 (by omega)).mul_left _
    rw [toScaled_eq_magOf]
    split
    · exact hmag
    · exact hmag.neg_right

theorem romPart_of_isRN32 {x : Half} {r : ℝ} (hr : |r| ≤ 1) (h : IsRN32 x r ∧ |value32 x - r| ≤ 1 / 2 ^ 25)
    (hexp : x = 0#32 ∨ 24 < x.toNat / 2 ^ 23 % 256) : RomPart x r where
  bound := by simpa using h.1.abs_le (c := 1) (by decide) (by simpa using hr)
  near := h.2
  multiple := pow_two_dvd_toScaled hexp

theorem rom_re_romPart {p : Nat} (hp : p < 139) : RomPart (re (rom p)) (rootW ^ p).re :=
  romPart_of_isRN32 ((Complex.abs_re_le_norm _).trans_eq (norm_rootW_pow p)) (rom_re_isRN32 hp)
    (.inr (rom_exponent p hp).1)

theorem rom_im_romPart {p : Nat} (hp : p < 139) : RomPart (im (rom p)) (rootW ^ p).im :=
  romPart_of_isRN32 ((Complex.abs_im_le_norm _).trans_eq (norm_rootW_pow p)) (rom_im_isRN32 hp) (rom_exponent p hp).2

/-- Settles O35, in each component. -/
theorem partialSumsStayNormal : Obligations.PartialSumsStayNormal := by
  intro u c k n hn x hx
  have hsum : PartialSum x n := by
    obtain rfl | rfl := hx
    · rw [re_dftPartial]
      exact sum32_partialSum (fun m => rom_re_romPart (dftPhase_lt u c k m)) hn
    · rw [im_dftPartial]
      exact sum32_partialSum (fun m => rom_im_romPart (dftPhase_lt u c k m)) hn
  exact ⟨hsum.finite, hsum.bound, hsum.normal⟩

theorem abs_re_dftEval_sub_le (u c k : Nat) : |value32 (re (dftEval u c k)) - (dftExact u c k).re| ≤ 1 / 2 ^ 9 := by
  rw [dftEval, re_dftPartial, dftExact_eq_sum, Complex.re_sum]
  exact abs_sum32_seqLen_sub_le fun m => rom_re_romPart (dftPhase_lt u c k m)

theorem abs_im_dftEval_sub_le (u c k : Nat) : |value32 (im (dftEval u c k)) - (dftExact u c k).im| ≤ 1 / 2 ^ 9 := by
  rw [dftEval, im_dftPartial, dftExact_eq_sum, Complex.im_sum]
  exact abs_sum32_seqLen_sub_le fun m => rom_im_romPart (dftPhase_lt u c k m)

/-- Settles O36. -/
theorem dftEvalIsAccurate : Obligations.DftEvalIsAccurate := fun u c k _ _ _ =>
  ⟨abs_re_dftEval_sub_le u c k, abs_im_dftEval_sub_le u c k⟩

/-- A ZERO sample would put the exact coefficient within 2^-8 of 0. -/
theorem dftEval_ne_zero {u : Nat} (hu : u % 139 ≠ 0) (c k : Nat) : dftEval u c k ≠ 0#64 := by
  intro hzero
  have hre := abs_re_dftEval_sub_le u c k
  have him := abs_im_dftEval_sub_le u c k
  rw [hzero, re_zero, value32_zero, zero_sub, abs_neg] at hre
  rw [hzero, im_zero, value32_zero, zero_sub, abs_neg] at him
  have hnorm := Complex.norm_le_abs_re_add_abs_im (dftExact u c k)
  have hsqrt : 1 ≤ Real.sqrt 139 := Real.one_le_sqrt.2 (by norm_num)
  rw [norm_dftExact hu] at hnorm
  linarith

/-- Settles O38. -/
theorem coefficientMagnitudes : Obligations.CoefficientMagnitudes := fun _ c k _ _ hk =>
  ⟨fun hu => ⟨norm_dftExact hu c k, dftEval_ne_zero hu c k⟩, fun hu => dftExact_of_dvd hu c hk⟩

end Sys2Proof.Machine

namespace Sys2Proof.Machine

/-! The spectral mapper (42_spectral_mapper.md R350 to R355): what PLACE_GRID and REORDER make of GRID, and that a
current PSET marked valid is a cache: PLACE_GRID and GENERATE do the same whether it is used or not. -/

variable {s : State}

/-! ### REORDER (R354, R355) -/

theorem word_swapGrid (s : State) {j : Nat} (hj : j < 1024) : word s.swapGrid.grid j = word s.grid ((j + 512) % 1024) :=
  word_fill _ hj

/-- Settles O46: REORDER has no checks. -/
theorem reorderResult : Obligations.ReorderResult :=
  ⟨decode_encode .reorder, fun s => ⟨_, rfl, fun _ => word_swapGrid s⟩⟩

/-- Two moves by half the grid are a move by the whole grid. -/
theorem swapGrid_twice (s : State) : s.swapGrid.swapGrid.grid = s.grid := by
  refine word_ext fun j (hj : j < 1024) => ?_
  have hback : ((j + 512) % 1024 + 512) % 1024 = j := by omega
  rw [word_swapGrid _ hj, word_swapGrid _ (Nat.mod_lt _ (by decide)), hback]

/-- Settles O47: the completion between the two leaves GRID alone. -/
theorem reorderIsAnInvolution : Obligations.ReorderIsAnInvolution := fun s => ⟨_, _, rfl, rfl, swapGrid_twice s⟩

/-! ### The checks of PLACE_GRID (R350) -/

/-- The checks PLACE_GRID makes, and GENERATE first. -/
def State.placeGridChecks (s : State) : Checks := s.indexChecks ++ s.configChecks ++ s.gridChecks

theorem exec_placeGrid_eq (s : State) :
    exec .placeGrid s = .next (s.checked s.placeGridChecks fun s => .done s.writeGrid).finish := rfl

theorem firstError_indexChecks (s : State) : firstError s.indexChecks =
    if s.cfg.preambleIndex.toInt < 0 ∨ 64 ≤ s.cfg.preambleIndex.toInt then some .idxRange else none :=
  firstError_cons_decide _ _ _

theorem firstError_gridChecks (s : State) : firstError s.gridChecks =
    if s.opStart < 0 then some .gridStartNeg else if 1024 < s.opStart + 139 then some .gridEndOver else none := by
  rw [State.gridChecks, firstError_cons_decide, firstError_cons_decide]
  rfl

/-- The record is the first failing check's row of the error table. -/
theorem placeGridRecord_cases (s : State) :
    (s.placeGridRecord = .success ∧ firstError s.placeGridChecks = none) ∨
    (s.placeGridRecord ≠ .success ∧
      ∃ e, firstError s.placeGridChecks = some e ∧ s.placeGridRecord = (e.code, e.detail)) := by
  rw [State.placeGridChecks, firstError_append, firstError_append, firstError_indexChecks, firstError_gridChecks,
    State.placeGridRecord]
  split
  case isTrue hidx => exact .inr ⟨by decide, _, rfl, rfl⟩
  split
  case isTrue hcfg =>
    obtain ⟨e, he, hcode, hdetail⟩ := (configCheckTable s).2 hcfg
    rw [he, ← hdetail, ← hcode]
    refine .inr ⟨fun h => ?_, e, rfl, rfl⟩
    rw [hdetail] at h
    exact hcfg (congrArg Prod.snd h)
  case isFalse hcfg =>
    rw [(configDetail_eq_zero_iff s).1 (not_not.1 hcfg)]
    split
    case isTrue hneg => exact .inr ⟨by decide, _, rfl, rfl⟩
    split
    case isTrue hover => exact .inr ⟨by decide, _, rfl, rfl⟩
    case isFalse hfits => exact .inl ⟨rfl, rfl⟩

/-- Behind its checks PLACE_GRID selects one of the 64 preambles, and its configuration is legal. -/
theorem placeGridChecks_passed (h : firstError s.placeGridChecks = none) :
    0 ≤ s.cfg.preambleIndex.toInt ∧ s.cfg.preambleIndex.toInt < 64 ∧ firstError s.configChecks = none := by
  rw [State.placeGridChecks, firstError_append_eq_none, firstError_append_eq_none, firstError_indexChecks] at h
  obtain ⟨⟨hidx, hcfg⟩, -⟩ := h
  split at hidx
  · cases hidx
  · exact ⟨by omega, by omega, hcfg⟩

/-! ### The grid PLACE_GRID writes (R350, R353) -/

theorem cardV_eq_div (h : firstError s.configChecks = none) : cardV s.cfg.ncs.toNat = 139 / s.cfg.ncs.toNat := by
  have hpass := (configDetail_eq_zero_iff s).2 h
  exact if_neg fun hzero => by simp [hzero, configDetail] at hpass

theorem toNat_opIdx (h : 0 ≤ s.cfg.preambleIndex.toInt) : s.opIdx.toNat = s.cfg.preambleIndex.toNat :=
  BitVec.toNat_toInt_of_msb _ (by simpa [BitVec.msb_eq_toInt] using h)

theorem preambleWord_eq_selectedSample (h : firstError s.placeGridChecks = none) (k : Nat) :
    s.preambleWord k = s.selectedSample k := by
  obtain ⟨hnonneg, -, hcfg⟩ := placeGridChecks_passed h
  rw [State.preambleWord, State.psetDef, toNat_opIdx hnonneg, State.opNcs, cardV_eq_div hcfg]
  rfl

theorem word_writeGrid (s : State) {j : Nat} (hj : j < 1024) : word s.writeGrid.grid j =
    if s.opStart ≤ (j : Int) ∧ (j : Int) < s.opStart + 139 then s.preambleWord ((j : Int) - s.opStart).toNat
    else zeroSample := word_fill _ hj

theorem word_writeGrid_eq_placedWord (h : firstError s.placeGridChecks = none) {j : Nat} (hj : j < 1024) :
    word s.writeGrid.grid j = s.placedWord j := by
  rw [word_writeGrid s hj, preambleWord_eq_selectedSample h, State.placedWord]

/-- Settles O44: the first failing check ends the command, else its grid is written. -/
theorem placeGridResult : Obligations.PlaceGridResult := by
  refine ⟨decode_encode .placeGrid, fun s => ?_⟩
  rw [exec_placeGrid_eq]
  obtain ⟨hrec, hcheck⟩ | ⟨hrec, e, hcheck, herr⟩ := placeGridRecord_cases s
  · exact ⟨fun h => absurd hrec h, fun _ => ⟨_, congrArg Host.Outcome.next (finish_checked_of_done hcheck),
      fun _ => word_writeGrid_eq_placedWord hcheck⟩⟩
  · rw [finish_checked_of_error hcheck, herr]
    exact ⟨fun _ => rfl, fun h => absurd (herr.trans h) hrec⟩

/-! ### PSET as a cache (R352, 20_memory.md R182; 10_state.md R64) -/

/-- The state with PSET no longer marked valid. -/
def State.dropPset (s : State) : State := { s with status := { s.status with psetValid := false } }

/-- How far a piece of pseudocode got when the preamble set it ran with was dropped. -/
def Progress.dropPset : Progress → Progress
  | .done s => .done s.dropPset
  | .failed s e => .failed s.dropPset e
  | .waiting s => .waiting s.dropPset

theorem finish_dropPset (p : Progress) : p.dropPset.finish = p.finish.dropPset := by
  cases p <;> rfl

theorem andThen_dropPset (p : Progress) {k : State → Progress} (hk : ∀ t : State, k t.dropPset = (k t).dropPset) :
    p.dropPset.andThen k = (p.andThen k).dropPset := by
  cases p with
  | done t => exact hk t
  | failed t e => rfl
  | waiting t => rfl

theorem checked_dropPset {checks : Checks} {body : State → Progress}
    (h : firstError checks = none → body s.dropPset = (body s).dropPset) :
    s.dropPset.checked checks body = (s.checked checks body).dropPset := by
  cases hc : firstError checks with
  | some e =>
    rw [checked_of_error hc, checked_of_error hc]
    rfl
  | none => rw [checked_of_pass hc, checked_of_pass hc, h hc]

/-- A look at the engine port and what follows from its answer do not read PSET_VALID. -/
theorem transformAnswer_dropPset (s : State) (i : Instr) :
    s.dropPset.transformAnswer i = (s.transformAnswer i).dropPset := by
  obtain ⟨a, l, d, h⟩ := exists_engineLook s
  have h' : s.dropPset.EngineLook a l d := h
  rw [State.transformAnswer, State.transformAnswer, pollEngine_of_look h, pollEngine_of_look h']
  cases a <;> rfl

/-- A look at the frame port and what follows from its answer do not read PSET_VALID. -/
theorem frameStage_dropPset (s : State) (i : Instr) (off : Int) :
    s.dropPset.frameStage i off = (s.frameStage i off).dropPset := by
  obtain ⟨a, l, d, h⟩ := exists_frameLook s
  have h' : s.dropPset.FrameLook a l d := h
  cases a with
  | okay => rw [frameStage_of_okay i off h, frameStage_of_okay i off h']; rfl
  | error je =>
    by_cases hj : je < s.opFlen
    · rw [frameStage_of_error i off h hj, frameStage_of_error i off h' hj]; rfl
    · rw [frameStage_of_error_past i off h hj, frameStage_of_error_past i off h' hj]; rfl
  | notYet n o => rw [State.frameStage, State.frameStage, pollFrame_of_look h, pollFrame_of_look h']; rfl
  | never n o => rw [State.frameStage, State.frameStage, pollFrame_of_look h, pollFrame_of_look h']; rfl

theorem generateAnswer_dropPset (s : State) : s.dropPset.generateAnswer = s.generateAnswer.dropPset := by
  rw [State.generateAnswer, transformAnswer_dropPset]
  exact andThen_dropPset _ fun t => frameStage_dropPset t.latchBlock.storeOffset .generate _

/-- A sample of a current PSET is the sample computed without it. -/
theorem preambleWord_dropPset (h : s.PsetOk) (hidx : 0 ≤ s.opIdx) (hlt : s.opIdx < 64) {k : Nat} (hk : k < 139) :
    s.dropPset.preambleWord k = s.preambleWord k := by
  change s.psetDef s.opIdx.toNat k = _
  rw [State.preambleWord]
  split
  case isTrue hvalid => exact ((h hvalid).2 _ (by omega) _ hk).symm
  case isFalse => rfl

/-- The grid is placed from the same samples. -/
theorem writeGrid_dropPset (h : s.PsetOk) (hcheck : firstError s.placeGridChecks = none) :
    s.dropPset.writeGrid = s.writeGrid.dropPset := by
  obtain ⟨hidx, hlt, -⟩ := placeGridChecks_passed hcheck
  have hgrid : s.dropPset.writeGrid.grid = s.writeGrid.grid := by
    have hstart : s.dropPset.opStart = s.opStart := rfl
    refine word_ext fun j hj => ?_
    rw [word_writeGrid s hj, word_writeGrid s.dropPset hj, hstart]
    split
    case isTrue hinside => exact preambleWord_dropPset h hidx hlt (by omega)
    case isFalse => rfl
  exact congrArg (fun g => State.dropPset { s with grid := g }) hgrid

theorem placeGrid_dropPset (h : s.PsetOk) :
    (s.dropPset.checked s.placeGridChecks fun s => .done s.writeGrid) =
      (s.checked s.placeGridChecks fun s => .done s.writeGrid).dropPset :=
  checked_dropPset fun hcheck => congrArg Progress.done (writeGrid_dropPset h hcheck)

/-- GENERATE's pre-flight begins with the checks of PLACE_GRID. -/
theorem placeGridChecks_of_generateChecks (h : firstError s.generateChecks = none) :
    firstError s.placeGridChecks = none := by
  simp only [State.generateChecks, firstError_append_eq_none] at h
  obtain ⟨⟨⟨hplace, -⟩, -⟩, -⟩ := h
  simpa only [State.placeGridChecks, firstError_append_eq_none] using hplace

/-- GENERATE as the piece of pseudocode it runs from its stage. -/
def State.generateProgress (s : State) : Progress :=
  match s.stage with
  | .start => s.checked s.generateChecks fun s => s.writeGrid.swapGrid.transformBegin.generateAnswer
  | .engine => s.generateAnswer
  | .frame => s.generateFrame

theorem exec_generate_eq (s : State) : exec .generate s = .next s.generateProgress.finish := rfl

/-- Only the grid placed at GENERATE's start reads PSET. -/
theorem generateProgress_dropPset (h : s.PsetOk) : s.dropPset.generateProgress = s.generateProgress.dropPset := by
  have hstage : s.dropPset.stage = s.stage := rfl
  rw [State.generateProgress, State.generateProgress, hstage]
  cases s.stage with
  | start =>
    refine checked_dropPset fun hcheck => ?_
    rw [writeGrid_dropPset h (placeGridChecks_of_generateChecks hcheck)]
    exact generateAnswer_dropPset s.writeGrid.swapGrid.transformBegin
  | engine => exact generateAnswer_dropPset s
  | frame => exact frameStage_dropPset s .generate _

/-- Settles O45: only the placed grid reads PSET, and a current PSET holds what is computed without it. -/
theorem cacheChangesNoResult : Obligations.CacheChangesNoResult := by
  intro i s t hi h ht
  change exec i s.dropPset = .next t.dropPset
  obtain rfl | rfl := hi <;> cases ht
  case inl =>
    rw [exec_placeGrid_eq, ← finish_dropPset]
    exact congrArg (fun p : Progress => Host.Outcome.next p.finish) (placeGrid_dropPset h)
  case inr =>
    rw [exec_generate_eq, generateProgress_dropPset h, finish_dropPset]
    rfl

end Sys2Proof.Machine

namespace Sys2Proof.Machine

/-! The transform interface (43_transform_interface.md R401, R407, R410): TRANSFORM at its start and at its wait is one
piece of pseudocode, and the engine's answer says how it ends. -/

variable {s : State}

/-- What comes before the wait (R410) is already done in a state that waits. -/
theorem transformBegin_of_begun (htd : s.status.tdValid = false) (hasm : s.status.asmValid = false)
    (heng : s.status.engHeld = true) : s.transformBegin = s :=
  calc s.transformBegin
      = { s with status := { s.status with
          tdValid := s.status.tdValid, asmValid := s.status.asmValid, engHeld := s.status.engHeld } } := by
        rw [htd, hasm, heng, State.transformBegin]
    _ = s := rfl

/-- TRANSFORM's second look at the engine port, from its wait, is the first one over again. -/
theorem exec_transform_eq
    (hwait : s.stage = .engine → s.status.tdValid = false ∧ s.status.asmValid = false ∧ s.status.engHeld = true) :
    exec .transform s = .next (s.transformBegin.transformAnswer .transform).finish := by
  rw [exec, execTransform]
  cases hstage : s.stage with
  | start => rfl
  | engine =>
    obtain ⟨htd, hasm, heng⟩ := hwait hstage
    rw [transformBegin_of_begun htd hasm heng]
  | frame => rfl

/-- Settles O48: from the start and from the wait, the engine's answer is met in the state the wait begins with, which
has the engine port as `s` has it. -/
theorem transformResult : Obligations.TransformResult := by
  refine ⟨decode_encode .transform, fun s a l d _ hwait h => ?_⟩
  have hlook : s.transformBegin.EngineLook a l d := h
  rw [exec_transform_eq hwait]
  cases a with
  | success =>
    rw [transformAnswer_of_success .transform hlook]
    rfl
  | fail =>
    rw [transformAnswer_of_fail .transform hlook]
    exact ⟨anyWords Config.gridSize d, rfl⟩
  | notYet =>
    rw [transformAnswer_of_notYet .transform hlook]
    rfl
  | never =>
    rw [transformAnswer_of_never .transform hlook]
    rfl

end Sys2Proof.Machine

namespace Sys2Proof.Machine

/-! The preamble assembler (44_preamble_assembler.md R450, R455): the checks of BUILD_BLOCK and what it latches, and the
assembled view as TD repeated, with whole copies of TD counted from the end of the cyclic prefix. -/

variable {s : State}

/-! ### BUILD_BLOCK (R450) -/

/-- NO_TD comes before the two checks of the block's shape (R451). -/
theorem firstError_buildBlockChecks (s : State) : firstError (s.tdChecks ++ s.blockChecks) =
    if s.status.tdValid = false then some .noTd
    else if 1024 < s.cfg.cpLen.toNat then some .cpGtBlock
    else if s.cfg.repeatCount.toInt < 1 then some .repeatLt1 else none := by
  rw [firstError_append, firstError_blockChecks, State.tdChecks]
  cases s.status.tdValid <;> rfl

/-- Settles O50: the first failing check is the record, and past the checks the latches hold exact values. -/
theorem buildBlockResult : Obligations.BuildBlockResult := by
  refine ⟨decode_encode .buildBlock, fun s => ?_⟩
  have hcheck := firstError_buildBlockChecks s
  split_ifs at hcheck ⊢ with htd hcp hrep
  · exact congrArg Host.Outcome.next (finish_checked_of_error hcheck)
  · exact congrArg Host.Outcome.next (finish_checked_of_error hcheck)
  · exact congrArg Host.Outcome.next (finish_checked_of_error hcheck)
  · exact ⟨s.latchBlock.results, congrArg Host.Outcome.next (finish_checked_of_done hcheck), rfl,
      latchBlock_values (by omega) (by omega)⟩

/-! ### The assembled view (R455) -/

/-- The view repeats TD: element `i` is word `t` of the copy `k` that holds it. Copy 0 starts where the cyclic prefix
ends, and the prefix is the end of copy -1. -/
theorem asmWord_of_copy {i t : Nat} (k : Int) (ht : t < 1024)
    (hi : (i : Int) = s.results.asmCp.toNat + 1024 * k + t) : s.asmWord i = word s.td t := by
  have hmod : ((i : Int) - s.results.asmCp.toNat) % Config.gridSize = t := by
    rw [show (Config.gridSize : Int) = 1024 from rfl]
    omega
  rw [State.asmWord, hmod, Int.toNat_natCast]

/-- Settles O51: an element of the prefix is in copy -1, and the others are in the copies from 0 to ASM_R - 1. -/
theorem assembledView : Obligations.AssembledView := by
  intro s hblock hvalid
  obtain ⟨-, hcp, -, -, hlen⟩ := hblock hvalid
  refine ⟨fun _ => rfl, fun i hi => ?_, fun q hq t ht => ⟨?_, ?_⟩⟩
  · exact asmWord_of_copy (-1) (by omega) (by omega)
  · omega
  · exact asmWord_of_copy q ht (by push_cast; rfl)

end Sys2Proof.Machine

namespace Sys2Proof.Machine

/-! The frame builder (45_frame_builder.md R500 to R521): its checks against the records the statements name, the frame
stage for each answer of frame memory, and GENERATE at its start and at its waits. -/

variable {s t : State}

/-! ### Checks and the records they report (60_exceptions.md R604) -/

/-- The record a rule names is the row of the first error its checks find, or success where they find none. -/
def Reports (found : Option Err) (r : Record) : Prop :=
  (r = .success ∧ found = none) ∨ (r ≠ .success ∧ ∃ e, found = some e ∧ r = (e.code, e.detail))

section Reports

variable {found found' : Option Err} {r r' : Record} {e : Err}

theorem reports_none : Reports none .success := .inl ⟨rfl, rfl⟩

theorem reports_some (he : (e.code, e.detail) ≠ Record.success) : Reports (some e) (e.code, e.detail) :=
  .inr ⟨he, e, rfl, rfl⟩

theorem Reports.ite {p : Prop} [Decidable p] (h : Reports found r) (h' : Reports found' r') :
    Reports (if p then found else found') (if p then r else r') := by
  split
  · exact h
  · exact h'

/-- The checks that come first report first. -/
theorem Reports.or (h : Reports found r) (h' : Reports found' r') :
    Reports (found.or found') (if r ≠ .success then r else r') := by
  obtain ⟨rfl, rfl⟩ | ⟨hr, e, rfl, hrow⟩ := h
  · exact h'
  · rw [if_pos hr]
    exact .inr ⟨hr, e, rfl, hrow⟩

theorem Reports.eq_none_iff (h : Reports found r) : found = none ↔ r = .success := by
  obtain ⟨rfl, rfl⟩ | ⟨hr, e, rfl, -⟩ := h
  · simp
  · simp [hr]

theorem Reports.exists_error (h : Reports found r) (hr : r ≠ .success) :
    ∃ e, found = some e ∧ r = (e.code, e.detail) := by
  obtain ⟨hsuccess, -⟩ | ⟨-, herror⟩ := h
  · exact absurd hsuccess hr
  · exact herror

/-- A failing check ends the command with the record and nothing else changed. -/
theorem finish_checked_of_reports {checks : Checks} {body : State → Progress} (h : Reports (firstError checks) r)
    (hr : r ≠ .success) : (s.checked checks body).finish = s.withRecord r.1 r.2 := by
  obtain ⟨e, he, rfl⟩ := h.exists_error hr
  exact finish_checked_of_error he

end Reports

theorem placeGrid_reports (s : State) : Reports (firstError s.placeGridChecks) s.placeGridRecord :=
  placeGridRecord_cases s

theorem block_reports (s : State) : Reports (firstError s.blockChecks) s.blockRecord := by
  rw [firstError_blockChecks]
  exact .ite (reports_some (by decide)) (.ite (reports_some (by decide)) reports_none)

theorem firstError_placeFrameChecks (s : State) : firstError s.placeFrameChecks =
    if s.status.asmValid = false then some .noBlock
    else if s.results.frameOffset.toInt < 0 then some .frameOffNeg
    else firstError (s.frameChecks s.results.frameOffset.toInt s.results.asmLen.toNat) := by
  have happend : s.placeFrameChecks = (!s.status.asmValid, .noBlock) :: (decide (s.opOff < 0), .frameOffNeg) ::
      s.frameChecks s.opOff s.results.asmLen.toNat := rfl
  rw [happend, firstError_cons, firstError_cons_decide]
  cases s.status.asmValid <;> rfl

theorem placeFrame_reports (s : State) : Reports (firstError s.placeFrameChecks) s.placeFrameRecord := by
  rw [firstError_placeFrameChecks, firstError_frameChecks]
  exact .ite (reports_some (by decide)) (.ite (reports_some (by decide)) (.ite (reports_some (by decide))
    (.ite (reports_some (by decide)) reports_none)))

theorem firstError_generateChecks (s : State) : firstError s.generateChecks =
    (firstError s.placeGridChecks).or ((firstError s.blockChecks).or
      (if 13 < s.cfg.startSymbol.toNat then some .startSymRange
        else firstError (s.frameChecks s.opOffset s.opAlen))) := by
  have happend : s.generateChecks =
      s.placeGridChecks ++ s.blockChecks ++ s.symbolChecks ++ s.frameChecks s.opOffset s.opAlen := rfl
  have hsymbol (cs : Checks) : firstError (s.symbolChecks ++ cs) =
      if 13 < s.cfg.startSymbol.toNat then some .startSymRange else firstError cs := firstError_cons_decide _ _ _
  rw [happend, List.append_assoc, List.append_assoc, firstError_append, firstError_append, hsymbol]

theorem generate_reports (s : State) : Reports (firstError s.generateChecks) s.generateRecord := by
  rw [firstError_generateChecks, firstError_frameChecks]
  exact (placeGrid_reports s).or ((block_reports s).or (.ite (reports_some (by decide))
    (.ite (reports_some (by decide)) (.ite (reports_some (by decide)) reports_none))))

/-- A pre-flight that passes has passed the checks of each stage GENERATE stands for. -/
structure State.PreflightPassed (s : State) : Prop where
  grid : firstError s.placeGridChecks = none
  cpFits : s.cfg.cpLen.toNat ≤ 1024
  repeats : 1 ≤ s.cfg.repeatCount.toInt
  symbol : firstError s.symbolChecks = none
  frame : firstError (s.frameChecks s.opOffset s.opAlen) = none

theorem preflightPassed (h : firstError s.generateChecks = none) : s.PreflightPassed := by
  have hgrid := placeGridChecks_of_generateChecks h
  obtain ⟨-, hblock, hframe⟩ := generateChecks_passed h
  simp only [State.generateChecks, firstError_append_eq_none] at h
  obtain ⟨⟨-, hsymbol⟩, -⟩ := h
  rw [firstError_blockChecks] at hblock
  split_ifs at hblock with hcp hrep
  exact ⟨hgrid, not_lt.1 hcp, not_lt.1 hrep, hsymbol, hframe⟩

/-! ### COMPUTE_OFFSET (R500, R501) -/

/-- The bound of R501 for a start symbol that the check lets pass. -/
theorem opOffset_le (hss : s.cfg.startSymbol.toNat ≤ 13) : s.opOffset ≤ 32309205 := by
  have hsym := (symbolSum_le s s.opSs).trans (Nat.mul_le_mul_right _ hss)
  have hfi := Nat.mul_le_mul (Nat.le_of_lt_succ s.cfg.frameIndex.isLt) (Nat.le_of_lt_succ s.cfg.samplesPerMs.isLt)
  have hsi := Nat.mul_le_mul (Nat.le_of_lt_succ s.cfg.slotIndex.isLt) (Nat.le_of_lt_succ s.cfg.slotSamples.isLt)
  exact (Nat.add_le_add (Nat.add_le_add hfi hsi) hsym).trans (by decide)

theorem opOffset_eq_sum (s : State) : s.opOffset =
    s.cfg.frameIndex.toNat * s.cfg.samplesPerMs.toNat + s.cfg.slotIndex.toNat * s.cfg.slotSamples.toNat +
      ∑ i ∈ Finset.range s.cfg.startSymbol.toNat, (nth 0#16 s.cfg.symDur i).toNat := by
  rw [State.opOffset, symbolSum_eq_sum]
  rfl

/-- Settles O52: past the check the offset is below 2^31, so FRAME_OFFSET holds it as it is. -/
theorem computeOffsetResult : Obligations.ComputeOffsetResult := by
  refine ⟨decode_encode .computeOffset, fun s => ?_⟩
  have hcheck := firstError_symbolChecks s
  split_ifs at hcheck ⊢ with hss
  · exact congrArg Host.Outcome.next (finish_checked_of_error hcheck)
  · refine ⟨BitVec.ofNat 32 s.opOffset, congrArg Host.Outcome.next (finish_checked_of_done hcheck), ?_, ?_⟩
    · rw [toInt_opOffset]
      exact_mod_cast opOffset_le (not_lt.1 hss)
    · rw [toInt_opOffset, opOffset_eq_sum]

/-! ### The frame stage (R510, R511; 20_memory.md R176) -/

/-- A look at frame memory leaves what a frame is made of. -/
theorem frameMem_written_of_look (s : State) (off : Int) {good : Nat} (hg : good ≤ s.opFlen) (l : List FrameAnswer)
    (d : Nat) : s.FrameWritten off good (State.frameMem { s with frameAnswers := l, draws := d } off good) := by
  obtain ⟨hwords, hregion, houtside⟩ := frameMem_written { s with frameAnswers := l, draws := d } off hg
  exact ⟨hwords, hregion, houtside⟩

/-- While the frame stage waits the region is any value once a write is issued, and nothing else changes. -/
theorem frameWait_outcome {i : Instr} {off : Int} {a : FrameAnswer} {l : List FrameAnswer} {d : Nat}
    (h : s.FrameLook a l d) (ha : (∃ n o, a = .notYet n o) ∨ ∃ n o, a = .never n o) :
    ∃ m n o, (s.frameStage i off).finish = { s with
        mem := m, frameAnswers := l, draws := d + 1, sequencer := .busy (.command i) .frame, issued := n
        outstanding := o } ∧
      (∀ x, s.outsideFrame x → memRead m x = memRead s.mem x) ∧ (n = 0 → m = s.mem) ∧ s.issued ≤ n
        ∧ (n ≤ s.issued ∨ n ≤ s.opFlen) ∧ (n = s.opFlen → 1 ≤ o) := by
  obtain ⟨n, o, hwait, hge, hle, hlast, -⟩ := frameStage_of_wait i off h ha
  refine ⟨_, n, o, congrArg Progress.finish hwait, fun x hx => ?_, fun hn => if_pos hn, hge, hle, hlast⟩
  exact (frameWait_changes (i := i) s n o l d).outside x hx

/-- The frame stage does what each answer of frame memory gives, for both commands that run it. -/
theorem frameStage_outcome (i : Instr) (off : Int) {a : FrameAnswer} {l : List FrameAnswer} {d : Nat}
    (h : s.FrameLook a l d) : s.FrameOutcome i off a l d (.next (s.frameStage i off).finish) := by
  have hfull := frameMem_written_of_look s off le_rfl l d
  cases a with
  | okay =>
    rw [frameStage_of_okay i off h]
    exact ⟨_, hfull, rfl⟩
  | error je =>
    rw [State.FrameOutcome]
    split
    case isTrue hje =>
      rw [frameStage_of_error i off h hje]
      exact ⟨_, frameMem_written_of_look s off hje.le l d, rfl⟩
    case isFalse hje =>
      rw [frameStage_of_error_past i off h hje]
      exact ⟨_, hfull, rfl⟩
  | notYet n o =>
    obtain ⟨m, n, o, hwait, hrest⟩ := frameWait_outcome h (.inl ⟨n, o, rfl⟩)
    exact ⟨m, n, o, congrArg Host.Outcome.next hwait, hrest⟩
  | never n o =>
    obtain ⟨m, n, o, hwait, hrest⟩ := frameWait_outcome h (.inr ⟨n, o, rfl⟩)
    exact ⟨m, n, o, congrArg Host.Outcome.next hwait, hrest⟩

/-! ### PLACE_FRAME (R510) -/

/-- Past its checks, PLACE_FRAME is the frame stage, from its start and from its wait. -/
theorem exec_placeFrame_of_pass (h : firstError s.placeFrameChecks = none) :
    exec .placeFrame s = .next (s.frameStage .placeFrame s.opOff).finish := by
  rw [exec, execPlaceFrame]
  cases s.stage with
  | start => rw [checked_of_pass h]
  | engine => rw [checked_of_pass h]
  | frame => rfl

/-- At its start, a failing check ends PLACE_FRAME. -/
theorem exec_placeFrame_of_fail (hstart : s.stage = .start) (h : s.placeFrameRecord ≠ .success) :
    exec .placeFrame s = .next (s.withRecord s.placeFrameRecord.1 s.placeFrameRecord.2) := by
  rw [exec, execPlaceFrame, hstart]
  exact congrArg Host.Outcome.next (finish_checked_of_reports (placeFrame_reports s) h)

/-- Settles O53: past the checks the start and the wait are both the frame stage, and each answer is its outcome. -/
theorem placeFrameResult : Obligations.PlaceFrameResult := by
  refine ⟨decode_encode .placeFrame, fun s => exec_placeFrame_of_fail, fun s a l d hrec hlook => ?_⟩
  rw [exec_placeFrame_of_pass ((placeFrame_reports s).eq_none_iff.2 hrec)]
  exact frameStage_outcome .placeFrame _ hlook

/-! ### GENERATE's pre-flight (R520, R521) -/

/-- Settles O54: the record is the row of the first check that fails. -/
theorem generatePreflight : Obligations.GeneratePreflight := by
  intro s hstart hrec
  rw [exec_generate_eq, State.generateProgress, hstart]
  exact congrArg Host.Outcome.next (finish_checked_of_reports (generate_reports s) hrec)

/-! ### GENERATE past its pre-flight (R520) -/

section Generate

variable {l : List EngineAnswer} {d : Nat}

/-- S1 and S2, and S3 up to its wait for the engine. -/
def State.generateBegin (s : State) : State := s.writeGrid.swapGrid.transformBegin

/-- S3 from the engine's success on, then S4 and S5: the state in which S6 begins. -/
def State.built (l : List EngineAnswer) (d : Nat) (s : State) : State :=
  (State.storeBlock (State.release { s with engine := l, draws := d })).latchBlock.storeOffset

theorem generateProgress_of_pass (hstart : s.stage = .start) (h : firstError s.generateChecks = none) :
    s.generateProgress = s.generateBegin.generateAnswer := by
  rw [State.generateProgress, hstart]
  exact checked_of_pass h

theorem generateAnswer_of_success (h : s.EngineLook .success l d) :
    s.generateAnswer = (s.built l d).frameStage .generate s.opOffset := by
  rw [State.generateAnswer, transformAnswer_of_success .generate h]
  rfl

theorem generateAnswer_of_fail (h : s.EngineLook .fail l d) : s.generateAnswer =
    .failed (State.spoilBlock (State.release { s with engine := l, draws := d })) .engineFail := by
  rw [State.generateAnswer, transformAnswer_of_fail .generate h, andThen_failed]

theorem generateAnswer_of_notYet (h : s.EngineLook .notYet l d) :
    s.generateAnswer = .waiting (State.waitAt .generate .engine { s with engine := l, draws := d }) := by
  rw [State.generateAnswer, transformAnswer_of_notYet .generate h, andThen_waiting]

theorem generateAnswer_of_never (h : s.EngineLook .never l d) :
    s.generateAnswer = .waiting (State.waitAt .generate .engine { s with engine := l, draws := d }) := by
  rw [State.generateAnswer, transformAnswer_of_never .generate h, andThen_waiting]

/-- The result registers after S4 and S5. -/
theorem built_results (h : s.PreflightPassed) (l : List EngineAnswer) (d : Nat) :
    let r := (s.built l d).results
    r = { s.results with asmCp := r.asmCp, asmR := r.asmR, asmLen := r.asmLen, frameOffset := r.frameOffset } ∧
      r.asmCp.toNat = s.cfg.cpLen.toNat ∧ (r.asmR.toNat : Int) = s.cfg.repeatCount.toInt ∧
      (r.asmLen.toNat : Int) = s.cfg.cpLen.toNat + s.cfg.repeatCount.toInt * 1024 ∧
      r.frameOffset.toInt = s.opOffset := by
  obtain ⟨hcp, hr, hlen⟩ := latchBlock_values h.cpFits h.repeats
  exact ⟨rfl, hcp, hr, hlen, toInt_opOffset s⟩

/-- S1 and S2 leave the placed grid with its halves swapped. -/
theorem word_generateBegin (h : firstError s.placeGridChecks = none) {j : Nat} (hj : j < 1024) :
    word s.generateBegin.grid j = s.placedWord ((j + 512) % 1024) :=
  (word_swapGrid s.writeGrid hj).trans (word_writeGrid_eq_placedWord h (Nat.mod_lt _ (by decide)))

/-- Settles O55: the engine's answer is met in the state that S1 and S2 leave, and frame memory's in the one that S5
leaves. -/
theorem generateResult : Obligations.GenerateResult := by
  refine ⟨decode_encode .generate, fun s a l d hstart hrec h => ?_⟩
  have hcheck := (generate_reports s).eq_none_iff.2 hrec
  have hpass := preflightPassed hcheck
  have hlook : s.generateBegin.EngineLook a l d := h
  refine ⟨s.generateBegin.grid, fun j hj => word_generateBegin hpass.grid hj, ?_⟩
  rw [exec_generate_eq, generateProgress_of_pass hstart hcheck]
  cases a with
  | success =>
    rw [generateAnswer_of_success hlook]
    exact ⟨_, built_results hpass l d,
      fun a' l' d' => frameStage_outcome (s := s.generateBegin.built l d) .generate _⟩
  | fail =>
    rw [generateAnswer_of_fail hlook]
    exact ⟨anyWords Config.gridSize d, rfl⟩
  | notYet =>
    rw [generateAnswer_of_notYet hlook]
    rfl
  | never =>
    rw [generateAnswer_of_never hlook]
    rfl

/-! ### GENERATE resumed at its waits (R520) -/

/-- A GENERATE that waits for the engine has passed its pre-flight, and what comes before the wait is done (10_state.md
R135). -/
theorem State.Inv.generate_at_engine (h : s.Inv) (hq : s.sequencer = .busy (.command .generate) .engine) :
    s.PreflightPassed ∧ s.transformBegin = s := by
  have hstage := h.stage
  rw [State.StageOk, hq] at hstage
  obtain ⟨heng, htd, hasm, -, -, hc⟩ := hstage
  exact ⟨preflightPassed (by simpa using hc), transformBegin_of_begun htd hasm heng⟩

theorem generateProgress_at_engine {c : Decoded} (hq : s.sequencer = .busy c .engine) :
    s.generateProgress = s.generateAnswer := by
  rw [State.generateProgress, State.stage, hq]

theorem generateProgress_at_frame {c : Decoded} (hq : s.sequencer = .busy c .frame) :
    s.generateProgress = s.generateFrame := by
  rw [State.generateProgress, State.stage, hq]

/-- A GENERATE that still waits for the engine stays where it waits. -/
theorem waitAt_engine_of_waiting (hq : s.sequencer = .busy (.command .generate) .engine) :
    State.waitAt .generate .engine { s with engine := l, draws := d } = { s with engine := l, draws := d } := by
  rw [State.waitAt, ← hq]

/-- Settles O56: both waits resume at the piece of pseudocode they stopped in. -/
theorem generateResumes : Obligations.GenerateResumes := by
  refine ⟨fun s a l d hinv hq hlook => ?_, fun s a l d _ hq hlook => ?_⟩
  · obtain ⟨hpass, hbegun⟩ := hinv.generate_at_engine hq
    have hlook' : s.transformBegin.EngineLook a l d := hlook
    rw [exec_generate_eq, generateProgress_at_engine hq]
    cases a with
    | success =>
      rw [generateAnswer_of_success hlook]
      exact ⟨_, built_results hpass l d, fun a' l' d' => frameStage_outcome (s := s.built l d) .generate _⟩
    | fail =>
      rw [← hbegun, generateAnswer_of_fail hlook']
      exact ⟨anyWords Config.gridSize d, rfl⟩
    | notYet =>
      rw [generateAnswer_of_notYet hlook, waitAt_engine_of_waiting hq]
      rfl
    | never =>
      rw [generateAnswer_of_never hlook, waitAt_engine_of_waiting hq]
      rfl
  · rw [exec_generate_eq, generateProgress_at_frame hq]
    exact frameStage_outcome .generate _ hlook

end Generate

end Sys2Proof.Machine

namespace Sys2Proof.Machine

/-! A GENERATE that succeeds (45_frame_builder.md R522, R523): it leaves what the six stage commands leave, and
under the standard configuration the standard frame. -/

variable {s t : State}

/-! ### The stage commands when nothing stops them (R523) -/

section StageCommands

variable {l : List EngineAnswer} {l' : List FrameAnswer}

theorem exec_placeGrid_of_pass (h : firstError s.placeGridChecks = none) :
    exec .placeGrid s = .next (s.writeGrid.complete .none) :=
  congrArg Host.Outcome.next (finish_checked_of_done h)

/-- R410 with the engine's success as its one answer. -/
def State.transformed (l : List EngineAnswer) (s : State) : State :=
  State.storeBlock (State.release { s.transformBegin with engine := l })

/-- R510 with OKAY as frame memory's one answer. -/
def State.framed (off : Int) (l' : List FrameAnswer) (s : State) : State :=
  State.frameDone off { s with frameAnswers := l' }

/-- The pre-flight reads only the configuration. -/
theorem preflightPassed_iff (s : State) :
    s.PreflightPassed ↔ State.PreflightPassed { State.reset with cfg := s.cfg } :=
  ⟨fun h => { h with }, fun h => { h with }⟩

theorem State.PreflightPassed.of_cfg (h : s.PreflightPassed) (hcfg : t.cfg = s.cfg) : t.PreflightPassed := by
  rw [preflightPassed_iff, hcfg, ← preflightPassed_iff]
  exact h

theorem exec_transform_of_success (hstart : s.stage = .start) (h : s.engine = .success :: l) :
    exec .transform s = .next ((s.transformed l).complete .none) := by
  have hlook : s.transformBegin.engine = .success :: l := h
  rw [exec_transform_eq fun hwait => by simp [hstart] at hwait, transformAnswer_success _ hlook]
  rfl

theorem exec_buildBlock_of_pass (htd : s.status.tdValid = true) (h : s.PreflightPassed) :
    exec .buildBlock s = .next (s.latchBlock.complete .none) := by
  refine congrArg Host.Outcome.next (finish_checked_of_done ?_)
  rw [firstError_buildBlockChecks, if_neg (by simp [htd]), if_neg (not_lt.2 h.cpFits), if_neg (not_lt.2 h.repeats)]

theorem exec_computeOffset_of_pass (h : s.PreflightPassed) :
    exec .computeOffset s = .next (s.storeOffset.complete .none) :=
  congrArg Host.Outcome.next (finish_checked_of_done h.symbol)

/-- PLACE_FRAME makes GENERATE's frame checks when the latches and FRAME_OFFSET are those of the operands. -/
theorem exec_placeFrame_of_okay (h : s.PreflightPassed) (hasm : s.status.asmValid = true)
    (hlen : (s.results.asmLen.toNat : Int) = s.opAlen) (hoff : s.opOff = s.opOffset)
    (hl : s.frameAnswers = .okay :: l') :
    exec .placeFrame s = .next ((s.framed s.opOffset l').complete .none) := by
  have hcheck : firstError s.placeFrameChecks = none := by
    have hoff' : s.results.frameOffset.toInt = s.opOffset := hoff
    rw [firstError_placeFrameChecks, if_neg (by simp [hasm]), hoff', if_neg (by omega), hlen]
    exact h.frame
  rw [exec_placeFrame_of_pass hcheck, hoff, frameStage_okay .placeFrame _ hl]
  rfl

end StageCommands

/-! ### Commands one after the other (R523) -/

/-- Nobody has raced, as at a command's acceptance. -/
def State.calm (s : State) : State := { s with raced := false }

/-- The bookkeeping of command `i` when it succeeds, from its acceptance to its completion, with the result registers
`r` copied at its acceptance. -/
def State.ran (i : Instr) (r : Results) (s : State) : State :=
  { s with
    cmd := encode i
    status := { s.status with
      lastOpc := (encode i).extractLsb' 0 8, done := true, errCode := 0#3, errDetail := 0x00#8 }
    sequencer := .idle
    shadow := r
    issued := 0
    outstanding := 0
    raced := false }

@[simp] theorem State.calm_cfg (s : State) : s.calm.cfg = s.cfg := rfl
@[simp] theorem State.calm_raced (s : State) : s.calm.raced = false := rfl
@[simp] theorem State.transformed_cfg (s : State) (l : List EngineAnswer) : (s.transformed l).cfg = s.cfg := rfl
@[simp] theorem State.transformed_raced (s : State) (l : List EngineAnswer) : (s.transformed l).raced = s.raced := rfl

theorem State.calm_of_not_raced (h : s.raced = false) : s.calm = s := by
  rw [State.calm, ← h]

/-- The acceptance of command `i` where it is no frame command: FRAME_VALID stays (40_command_control.md R250). -/
def State.started (i : Instr) (s : State) : State :=
  { s with
    cmd := encode i
    status := { s.status with lastOpc := (encode i).extractLsb' 0 8, done := false }
    sequencer := .busy (.command i) .start
    shadow := s.results
    raced := false }

section Sequence

variable {l : List EngineAnswer} {l' : List FrameAnswer} {i : Instr} {r : Results}

theorem accept_eq_started (hi : isFrameCommand (.command i) = false) : s.accept (encode i) = s.started i := by
  simp [State.accept, State.started, hi]

theorem exec_generate_accepted (hcheck : firstError s.generateChecks = none)
    (hengine : s.engine = .success :: l) (hframe : s.frameAnswers = .okay :: l') :
    exec .generate (s.accept (encode .generate)) =
      .next (((s.calm.writeGrid.swapGrid.transformed l).latchBlock.storeOffset.framed s.opOffset l').ran .generate
        s.results) := by
  have hlook : (s.accept (encode .generate)).generateBegin.EngineLook .success l s.draws :=
    .inl ⟨by decide, hengine, rfl⟩
  have hokay : ((s.accept (encode .generate)).generateBegin.built l s.draws).frameAnswers = .okay :: l' := hframe
  rw [exec_generate_eq, generateProgress_of_pass (s := s.accept (encode .generate)) rfl hcheck,
    generateAnswer_of_success hlook, frameStage_okay .generate _ hokay]
  rfl

theorem exec_placeGrid_accepted (h : s.PreflightPassed) :
    exec .placeGrid (s.accept (encode .placeGrid)) = .next (s.calm.writeGrid.ran .placeGrid s.results) := by
  have hpass : (s.started .placeGrid).PreflightPassed := h.of_cfg rfl
  rw [accept_eq_started rfl, exec_placeGrid_of_pass hpass.grid]
  rfl

theorem exec_reorder_ran : exec .reorder ((s.ran i r).accept (encode .reorder)) =
    .next (s.swapGrid.ran .reorder s.results) := by
  rw [accept_eq_started rfl]
  rfl

theorem exec_transform_ran (h : s.engine = .success :: l) : exec .transform ((s.ran i r).accept (encode .transform)) =
    .next ((s.transformed l).ran .transform s.results) := by
  have hengine : ((s.ran i r).started .transform).engine = .success :: l := h
  rw [accept_eq_started rfl, exec_transform_of_success rfl hengine]
  rfl

theorem exec_buildBlock_ran (htd : s.status.tdValid = true) (h : s.PreflightPassed) :
    exec .buildBlock ((s.ran i r).accept (encode .buildBlock)) = .next (s.latchBlock.ran .buildBlock s.results) := by
  have htd' : ((s.ran i r).started .buildBlock).status.tdValid = true := htd
  rw [accept_eq_started rfl, exec_buildBlock_of_pass htd' (h.of_cfg rfl)]
  rfl

theorem exec_computeOffset_ran (h : s.PreflightPassed) :
    exec .computeOffset ((s.ran i r).accept (encode .computeOffset)) =
      .next (s.storeOffset.ran .computeOffset s.results) := by
  have hpass : ((s.ran i r).started .computeOffset).PreflightPassed := h.of_cfg rfl
  rw [accept_eq_started rfl, exec_computeOffset_of_pass hpass]
  rfl

theorem exec_placeFrame_ran (hraced : s.raced = false) (h : s.PreflightPassed) (hasm : s.status.asmValid = true)
    (hlen : (s.results.asmLen.toNat : Int) = s.opAlen) (hoff : s.opOff = s.opOffset)
    (hl : s.frameAnswers = .okay :: l') :
    exec .placeFrame ((s.ran i r).accept (encode .placeFrame)) =
      .next ((s.framed s.opOffset l').ran .placeFrame s.results) := by
  have hpass : ((s.ran i r).accept (encode .placeFrame)).PreflightPassed := h.of_cfg rfl
  rw [exec_placeFrame_of_okay hpass hasm hlen hoff hl]
  conv_rhs => rw [← State.calm_of_not_raced hraced]
  rfl

/-- S4 to S6 of GENERATE as commands, on the block that TRANSFORM left. -/
theorem exec_placeFrame_ran_built (hraced : s.raced = false) (h : s.PreflightPassed)
    (hl : s.frameAnswers = .okay :: l') :
    exec .placeFrame ((s.latchBlock.storeOffset.ran i r).accept (encode .placeFrame)) =
      .next ((s.latchBlock.storeOffset.framed s.opOffset l').ran .placeFrame s.latchBlock.storeOffset.results) := by
  obtain ⟨-, -, hlen⟩ := latchBlock_values h.cpFits h.repeats
  exact exec_placeFrame_ran hraced (h.of_cfg rfl) rfl hlen (toInt_opOffset s) hl

end Sequence

/-- Settles O57: each stage command passes its checks because the pre-flight did, and leaves what its stage of GENERATE
leaves. -/
theorem generateIsTheSixStages : Obligations.GenerateIsTheSixStages := by
  intro s l l' hrec hengine hframe
  have hcheck := (generate_reports s).eq_none_iff.2 hrec
  have hpass := preflightPassed hcheck
  have hblock : (s.calm.writeGrid.swapGrid.transformed l).PreflightPassed := hpass.of_cfg (by simp)
  exact ⟨_, _, _, _, _, _, _, exec_generate_accepted hcheck hengine hframe, exec_placeGrid_accepted hpass,
    exec_reorder_ran, exec_transform_ran hengine, exec_buildBlock_ran rfl hblock,
    exec_computeOffset_ran (hblock.of_cfg rfl), exec_placeFrame_ran_built (by simp) hblock hframe, rfl, rfl, rfl⟩

/-! ### A GENERATE that completes without an error (R520) -/

theorem Reports.code_ne_zero {e : Err} {r : Record} (h : Reports (some e) r) : e.code ≠ 0#3 := by
  obtain ⟨-, hnone⟩ | ⟨hr, e', he, rfl⟩ := h
  · cases hnone
  · cases he
    cases e with
    | none => exact absurd rfl hr
    | _ => decide

/-- Every way to end but the frame written whole reports an error, and a wait is no end. -/
theorem generate_completed (hstart : s.stage = .start) (h : exec .generate s = .next t) (hidle : t.sequencer = .idle)
    (hcode : t.status.errCode = 0#3) :
    firstError s.generateChecks = none ∧ ∃ l d l' d', t = State.complete .none
      (State.frameDone s.opOffset { s.generateBegin.built l d with frameAnswers := l', draws := d' }) := by
  rw [exec_generate_eq] at h
  cases h
  cases hcheck : firstError s.generateChecks with
  | some e =>
    have hreports := hcheck ▸ generate_reports s
    rw [State.generateProgress, hstart] at hcode
    simp only [checked_of_error hcheck, finish_failed] at hcode
    exact absurd hcode hreports.code_ne_zero
  | none =>
    refine ⟨rfl, ?_⟩
    rw [generateProgress_of_pass hstart hcheck] at hidle hcode ⊢
    generalize hoff : s.opOffset = off
    have hoff' : s.generateBegin.opOffset = off := hoff
    generalize s.generateBegin = g at *
    obtain ⟨a, l, d, hlook⟩ := exists_engineLook g
    cases a with
    | success =>
      rw [generateAnswer_of_success hlook, hoff'] at hidle hcode ⊢
      obtain ⟨l', d', hdone | ⟨je, -, herror⟩ | ⟨n, o, hwait, -⟩⟩ := frameStage_cases .generate off (g.built l d)
      · exact ⟨l, d, l', d', congrArg Progress.finish hdone⟩
      · rw [herror] at hcode
        cases hcode
      · rw [hwait] at hidle
        cases hidle
    | fail =>
      rw [generateAnswer_of_fail hlook] at hcode
      cases hcode
    | notYet =>
      rw [generateAnswer_of_notYet hlook] at hidle
      cases hidle
    | never =>
      rw [generateAnswer_of_never hlook] at hidle
      cases hidle

/-! ### The standard configuration (R522) -/

/-- The operands of the standard configuration. -/
structure State.StandardOperands (s : State) : Prop where
  flen : s.opFlen = 307200
  offset : s.opOffset = 294048
  alen : s.opAlen = 12756
  start : s.opStart = 224

theorem standardOperands (hrb : s.cfg.rbCount = 48#16) (hfo : s.cfg.freqOffset = 0#16) (hcp : s.cfg.cpLen = 468#16)
    (hrep : s.cfg.repeatCount = 12#16) (hfi : s.cfg.frameIndex = 9#4) (hsi : s.cfg.slotIndex = 1#4)
    (hspm : s.cfg.samplesPerMs = 30720#20) (hslots : s.cfg.slotSamples = 15360#20)
    (hsym : symbolSum s.opSd s.opSs = 2208) : s.StandardOperands where
  flen := by rw [State.opFlen, State.opSpm, hspm]; rfl
  offset := by
    rw [State.opOffset, State.opFi, State.opSpm, State.opSi, State.opSlots, hfi, hspm, hsi, hslots, hsym]
    rfl
  alen := by rw [State.opAlen, State.opNcp, State.opR, hcp, hrep]; decide
  start := by rw [State.opStart, State.opRb, State.opFo, hrb, hfo]; decide

/-- The grid that S1 and S2 leave under the standard configuration. -/
theorem standard_grid (h : s.StandardOperands) (hcheck : firstError s.placeGridChecks = none) {j : Nat}
    (hj : j < 1024) : word s.generateBegin.grid j = if 736 ≤ j ∧ j < 875 then s.selectedSample (j - 736) else 0#64 := by
  rw [word_generateBegin hcheck hj, State.placedWord, h.start]
  by_cases hin : 736 ≤ j ∧ j < 875
  · have hk : (((j + 512) % 1024 : Nat) : Int) - 224 = ((j - 736 : Nat) : Int) := by omega
    rw [if_pos hin, if_pos (by omega), hk, Int.toNat_natCast]
  · rw [if_neg hin, if_neg (by omega)]

/-- Frame word `j` of the standard frame is word `j + 556 - 294048` of the repeated TD: 556 = 1024 - 468. -/
theorem standard_frameByte (hlen : s.results.asmLen = 12756#26) (hcp : s.results.asmCp = 468#16) (j b : Nat) :
    s.frameByte 294048 j b = BitVec.extractLsb' (8 * b) 8
      (if 294048 ≤ j ∧ j < 306804 then word s.td ((j + 556 - 294048) % 1024) else 0#64) := by
  have hlen' : s.results.asmLen.toNat = 12756 := by rw [hlen]; rfl
  have hcp' : s.results.asmCp.toNat = 468 := by rw [hcp]; rfl
  rw [State.frameByte, hlen', hcp']
  by_cases hin : 294048 ≤ j ∧ j < 306804
  · have hk : (((j : Int) - 294048 - (468 : Nat)) % 1024).toNat = (j + 556 - 294048) % 1024 := by omega
    rw [if_pos hin, hk]
    exact congrArg _ (if_pos (by omega))
  · rw [if_neg hin]
    exact congrArg _ (if_neg (by omega))

/-- Settles O58: the GENERATE wrote its frame whole, from the operands of the standard configuration. -/
theorem standardFrame : Obligations.StandardFrame := by
  intro s t hstart hraced _ hrb hfo hcp hrep hfi hsi hspm hslots _ hsym h hidle hcode
  have hstd := standardOperands hrb hfo hcp hrep hfi hsi hspm hslots hsym
  obtain ⟨hcheck, l, d, l', d', rfl⟩ := generate_completed hstart h hidle hcode
  have hoff : (s.opOffset : Int) = 294048 := congrArg Nat.cast hstd.offset
  have hlen : (s.generateBegin.built l d).results.asmLen = 12756#26 := congrArg (BitVec.ofInt 26) hstd.alen
  have hcp' : (s.generateBegin.built l d).results.asmCp = 468#16 := by
    have hncp : s.opNcp = 468 := congrArg BitVec.toNat hcp
    exact congrArg (BitVec.ofNat 16) hncp
  have hframe := (frameMem_written { s.generateBegin.built l d with frameAnswers := l', draws := d' } s.opOffset
    le_rfl).words hraced
  refine ⟨hstd.flen, rfl, congrArg (BitVec.ofNat 32) hstd.offset, hlen, hcp', rfl,
    fun j hj => standard_grid hstd (placeGridChecks_of_generateChecks hcheck) hj, fun j hj b hb => ?_⟩
  refine (hframe j (hj.trans_eq hstd.flen.symm) b hb).trans (congrArg some ?_)
  rw [hoff]
  exact standard_frameByte hlen hcp' j b

end Sys2Proof.Machine

namespace Sys2Proof.Machine

/-! Frame memory stays as it was written (45_frame_builder.md R511): while no frame command is in progress no write of
ZCPG is outstanding, and of all that a step can be only another agent's write stores a byte. -/

variable {s t : State} {i : Instr}

theorem frameInProgress_of_busy {c : Decoded} {st : Stage} (hq : s.sequencer = .busy c st) :
    s.frameInProgress = isFrameCommand c := by
  rw [State.frameInProgress, hq]

theorem exec_mem (h : exec i s = .next t) (hi : isFrameCommand (.command i) = false) : t.mem = s.mem := by
  have hwriters : i ∉ Part.frame.writers := by cases i <;> simp [Part.writers, isFrameCommand] at hi ⊢
  exact congrArg Prod.fst ((exec_changes h).rest .frame (mt mem_writtenBy.1 hwriters))

theorem sequencerTurn_mem (h : sequencerTurn s = .next t) (hf : s.frameInProgress = false) : t.mem = s.mem := by
  obtain hturn | ⟨c, st, -, -, hturn⟩ | ⟨i, st, -, hq, hturn⟩ := sequencerTurn_cases s <;> rw [hturn] at h
  · cases h
    rfl
  · cases h
    rfl
  · exact exec_mem h ((frameInProgress_of_busy hq).symm.trans hf)

/-- Frame writes are issued only by a frame command in progress (20_memory.md R176). -/
theorem State.Inv.issued_eq_zero (h : s.Inv) (hf : s.frameInProgress = false) : s.issued = 0 := by
  have hstage := h.stage
  unfold State.StageOk at hstage
  split at hstage
  · obtain ⟨-, hissued, -⟩ := hstage
    exact hissued
  · obtain ⟨-, hissued, -⟩ := hstage
    exact hissued
  · obtain ⟨-, -, -, hissued, -⟩ := hstage
    exact hissued
  · next c hq =>
    obtain ⟨-, -, -, -, hc⟩ := hstage
    have hframe : c = .command .placeFrame ∨ c = .command .generate := hc.imp And.left And.left
    rw [frameInProgress_of_busy hq, (isFrameCommand_iff c).2 hframe] at hf
    cases hf

/-- A reset frees the region only of writes that were issued (70_reset_and_hazards.md R703). -/
theorem doReset_mem_of_not_issued (h : s.issued = 0) : s.doReset.mem = s.mem := if_pos h

theorem hostRead_mem (s : State) (g : Target) : (s.hostRead g).mem = s.mem := by
  by_cases h : s.busy = false ∨ g.isWindow = false
  · rw [hostRead_determined h]
  · obtain ⟨hb, hw⟩ := not_or.1 h
    rw [hostRead_window_busy (Bool.eq_true_of_not_eq_false hb) (Bool.eq_true_of_not_eq_false hw)]

theorem writeRegister_mem (s : State) (r : Register) (data : Half) : (s.writeRegister r data).mem = s.mem := by
  by_cases hr : r = .cmd
  · subst hr
    rfl
  · rw [writeRegister_eq hr]

/-- No write of the host reaches frame memory; of its writes only a soft reset could free the region. -/
theorem hostWrite_mem (h : s.issued = 0) (g : Target) (data : Half) : (s.hostWrite g data).mem = s.mem := by
  by_cases hc : g = .register .ctrl
  · subst hc
    rw [hostWrite_ctrl]
    split
    · exact doReset_mem_of_not_issued h
    · rfl
  by_cases hs : g = .register .status
  · subst hs
    rfl
  cases hb : s.busy with
  | true => rw [hostWrite_busy hb hc hs, State.dropWrite_mem]
  | false =>
    cases g with
    | register r =>
      rw [hostWrite_register hb (by simpa using hc) (by simpa using hs)]
      exact writeRegister_mem s r data
    | grid j k => rw [hostWrite_grid hb]
    | _ => rw [hostWrite_ignored hb rfl]

theorem hostAccess_mem {a : HostAccess} (h : hostAccess a s = .next t) (hissued : s.issued = 0) : t.mem = s.mem := by
  have hr : s.resetAsserted = false := released_of_hostAccess h
  cases hw : a.wellFormed with
  | false =>
    rw [hostAccess_illegal hr hw] at h
    cases h
    rfl
  | true =>
    obtain ⟨o, ho, h4, rfl | ⟨data, rfl⟩⟩ := eq_readAt_or_writeAt hw
    · rw [hostAccess_readAt hr ho h4] at h
      cases h
      exact hostRead_mem s _
    · rw [hostAccess_writeAt hr ho h4] at h
      cases h
      exact hostWrite_mem hissued _ data

theorem agentRead_mem {addr : Addr} (h : agentRead addr s = .next t) : t.mem = s.mem := by
  unfold agentRead at h
  split at h
  · cases h
    rfl
  · split at h
    · cases h
      rfl
    · cases h

theorem resetLine_mem {asserted : Bool} (h : resetLine asserted s = .next t) (hissued : s.issued = 0) :
    t.mem = s.mem := by
  cases asserted with
  | true =>
    cases h
    exact doReset_mem_of_not_issued hissued
  | false =>
    cases h
    rfl

theorem handle_mem {e : Event} (h : handle e s = .next t) (hf : s.frameInProgress = false) (hissued : s.issued = 0)
    (he : ∀ a b, e ≠ .agentWrite a b) : t.mem = s.mem := by
  cases e with
  | host a => exact hostAccess_mem h hissued
  | agentWrite addr b => exact absurd rfl (he addr b)
  | agentRead addr => exact agentRead_mem h
  | resetLine asserted => exact resetLine_mem h hissued
  | sequencer => exact sequencerTurn_mem h hf

/-- Settles O60: the step is the sequencer's turn or an event, and no write is outstanding for a reset to lose. -/
theorem frameStaysAsWritten : Obligations.FrameStaysAsWritten := by
  intro s t hinv hstep hf hwrite
  have hissued := hinv.issued_eq_zero hf
  cases hevents : s.events with
  | nil =>
    rw [step_no_event hevents] at hstep
    exact sequencerTurn_mem hstep hf
  | cons e rest =>
    rw [step_event hevents] at hstep
    have hhead (a : Addr) (b : Byte) : e ≠ .agentWrite a b := fun he => hwrite a b (by rw [hevents, he]; rfl)
    exact handle_mem (s := { s with events := rest }) hstep hf hissued hhead

end Sys2Proof.Machine

namespace Sys2Proof.Machine

/-! Exceptions (60_exceptions.md R600 to R635): how a command ends, the interrupt output, and what stops a step. -/

variable {s t : State} {i : Instr}

/-! ### How a command ends (R602, R604, R609) -/

/-- The rows of R602 that a list of checks can report. -/
def rows (checks : Checks) : List Record := checks.map fun (_, e) => (e.code, e.detail)

theorem mem_rows_of_firstError {checks : Checks} {e : Err} (h : firstError checks = some e) :
    (e.code, e.detail) ∈ rows checks := by
  obtain ⟨c, hc, rfl⟩ := Option.map_eq_some_iff.1 h
  exact List.mem_map_of_mem (List.mem_of_find?_eq_some hc)

/-- The commands that wait for an external agent (70_reset_and_hazards.md R731). -/
def mayWait (i : Instr) : Prop := i = .transform ∨ i = .placeFrame ∨ i = .generate

/-- Pseudocode that goes as the rules of command `i` let it: it raises only errors of the command's rows, and waits, the
command still running, only if the command is one that waits. -/
def Progress.Follows (i : Instr) : Progress → Prop
  | .done _ => True
  | .failed _ e => (e.code, e.detail) ∈ raises i
  | .waiting t => t.busy = true ∧ mayWait i

/-- Pseudocode that does not wait completes the command, with success or with a row of its own. -/
theorem Progress.Follows.completes {p : Progress} (h : p.Follows i) (hend : p.finish.sequencer = .idle ∨ ¬mayWait i) :
    ∃ u e, p.finish = State.complete e u ∧ (e.code, e.detail) ∈ Record.success :: raises i := by
  cases p with
  | done u => exact ⟨u, .none, rfl, List.mem_cons_self⟩
  | failed u e => exact ⟨u, e, rfl, List.mem_cons_of_mem _ h⟩
  | waiting u =>
    obtain ⟨hbusy, hwait⟩ := h
    obtain hidle | hno := hend
    · have hfree : u.busy = false := busy_eq_false_iff.2 hidle
      simp [hbusy] at hfree
    · exact absurd hwait hno

theorem checked_follows {checks : Checks} {body : State → Progress} (hrows : rows checks ⊆ raises i)
    (hbody : (body s).Follows i) : (s.checked checks body).Follows i := by
  cases hc : firstError checks with
  | some e =>
    rw [checked_of_error hc]
    exact hrows (mem_rows_of_firstError hc)
  | none =>
    rw [checked_of_pass hc]
    exact hbody

theorem transformAnswer_follows (s : State) (hi : i ∈ Part.engine.writers) {k : State → Progress}
    (hk : ∀ t, (k t).Follows i) : ((s.transformAnswer i).andThen k).Follows i := by
  have hi' : i = .transform ∨ i = .generate := by simpa [Part.writers] using hi
  obtain ⟨l, d, hdone | hfail | hwait⟩ := transformAnswer_cases i s
  · rw [hdone]
    exact hk _
  · rw [hfail]
    obtain rfl | rfl := hi' <;> simp [Progress.Follows, Err.code, Err.detail, raises]
  · rw [hwait]
    exact ⟨rfl, hi'.imp_right .inr⟩

theorem frameStage_follows (s : State) (hi : i ∈ Part.frame.writers) (off : Int) : (s.frameStage i off).Follows i := by
  have hi' : i = .placeFrame ∨ i = .generate := by simpa [Part.writers] using hi
  obtain ⟨l, d, hdone | ⟨je, -, herror⟩ | ⟨n, o, hwait, -⟩⟩ := frameStage_cases i off s
  · rw [hdone]
    trivial
  · rw [herror]
    obtain rfl | rfl := hi' <;> simp [Progress.Follows, Err.code, Err.detail, raises]
  · rw [hwait]
    exact ⟨rfl, .inr hi'⟩

theorem transform_follows (s : State) : (s.transformAnswer .transform).Follows .transform := by
  rw [← andThen_progressDone (s.transformAnswer .transform)]
  exact transformAnswer_follows s (by simp [Part.writers]) fun _ => trivial

theorem generateFrame_follows (s : State) : s.generateFrame.Follows .generate :=
  frameStage_follows s (by simp [Part.writers]) _

theorem generateAnswer_follows (s : State) : s.generateAnswer.Follows .generate :=
  transformAnswer_follows s (by simp [Part.writers]) fun _ => generateFrame_follows _

theorem rows_placeFrameChecks (s : State) : rows s.placeFrameChecks ⊆ raises .placeFrame := by
  have hrows : raises .placeFrame = rows s.placeFrameChecks ++ [(5#3, 0x40#8)] := rfl
  rw [hrows]
  exact List.subset_append_left _ _

theorem rows_generateChecks (s : State) : rows s.generateChecks ⊆ raises .generate := by
  have hrows : raises .generate = rows s.generateChecks ++ [(3#3, 0x20#8), (5#3, 0x40#8)] := rfl
  rw [hrows]
  exact List.subset_append_left _ _

/-- Every command answers the end of pseudocode that follows its rules. A command without a stage has the rows of its
checks; PLACE_FRAME and GENERATE have those of their stages as well. -/
theorem exec_follows (i : Instr) (s : State) : ∃ p : Progress, exec i s = .next p.finish ∧ p.Follows i := by
  cases i with
  | nop => exact ⟨.done s, rfl, trivial⟩
  | rootSample | reorder => exact ⟨.done _, rfl, trivial⟩
  | csSample | dftCoef | genSet | placeGrid | buildBlock | computeOffset =>
    exact ⟨_, rfl, checked_follows (List.Subset.refl _) trivial⟩
  | transform =>
    refine ⟨_, rfl, ?_⟩
    split <;> exact transform_follows _
  | placeFrame =>
    have hframe := frameStage_follows s (i := .placeFrame) (by simp [Part.writers]) s.opOff
    refine ⟨_, rfl, ?_⟩
    split
    · exact checked_follows (rows_placeFrameChecks s) hframe
    · exact checked_follows (rows_placeFrameChecks s) hframe
    · exact hframe
  | generate =>
    refine ⟨_, rfl, ?_⟩
    split
    · exact checked_follows (rows_generateChecks s) (generateAnswer_follows _)
    · exact generateAnswer_follows s
    · exact generateFrame_follows s

/-- Settles O26: a command that cannot wait completes. -/
theorem everyCommandAnswers : Obligations.EveryCommandAnswers := by
  intro i s
  obtain ⟨p, hexec, hp⟩ := exec_follows i s
  refine ⟨_, hexec, fun ht hf hg => ?_⟩
  have hno : ¬mayWait i := by simp [mayWait, ht, hf, hg]
  obtain ⟨u, e, hend, -⟩ := hp.completes (.inr hno)
  rw [hend]
  exact ⟨rfl, rfl, rfl⟩

/-- Settles O27: an answer with the sequencer idle is no wait. -/
theorem completionRecords : Obligations.CompletionRecords := by
  intro i s t h hidle
  obtain ⟨p, hexec, hp⟩ := exec_follows i s
  cases hexec.symm.trans h
  obtain ⟨u, e, hend, hrow⟩ := hp.completes (.inl hidle)
  rw [hend]
  exact ⟨rfl, hrow⟩

/-! ### The interrupt output (R620) -/

theorem irq_of_done (h : s.status.done = true) : s.irq = s.irqEn := by
  rw [State.irq, h, Bool.and_true]

theorem irq_of_not_done (h : s.status.done = false) : s.irq = false := by
  rw [State.irq, h, Bool.and_false]

theorem irq_of_disabled (h : s.irqEn = false) : s.irq = false := by
  rw [State.irq, h, Bool.false_and]

theorem irq_of_enabled (h : s.irqEn = true) : s.irq = s.status.done := by
  rw [State.irq, h, Bool.true_and]

theorem exec_irqEn (h : exec i s = .next t) : t.irqEn = s.irqEn := by
  obtain ⟨⟨-, hirq, -⟩, -⟩ := commandFrames i s t h
  exact hirq

/-- Settles O18: a completion sets DONE and keeps IRQ_EN; each of the host's writes and a reset clears or sets one of
the two. -/
theorem interruptOutput : Obligations.InterruptOutput := by
  obtain ⟨-, hstatus⟩ := statusRegister
  refine ⟨fun _ => rfl, fun i s t h hidle => ?_, fun c s => ⟨_, rfl, irq_of_done rfl⟩,
    fun s hr => ⟨⟨_, (hstatus s).2 _ hr, irq_of_not_done rfl⟩,
      ⟨_, hostAccess_setIrqEn hr rfl, irq_of_disabled rfl⟩, ⟨_, hostAccess_setIrqEn hr rfl, irq_of_enabled rfl⟩,
      ⟨_, hostAccess_softReset hr rfl, irq_of_disabled rfl⟩,
      fun w hb => ⟨_, hostAccess_writeCmd hr hb w, irq_of_not_done rfl⟩⟩,
    fun s => ⟨_, rfl, irq_of_disabled rfl⟩⟩
  obtain ⟨hdone, -⟩ := completionRecords i s t h hidle
  rw [irq_of_done hdone, exec_irqEn h]

/-! ### What stops a step (R609; 70_reset_and_hazards.md R700, 20_memory.md R175) -/

theorem sequencerTurn_next (s : State) : ∃ t, sequencerTurn s = .next t := by
  obtain hturn | ⟨c, st, -, -, hturn⟩ | ⟨i, st, -, -, hturn⟩ := sequencerTurn_cases s
  · exact ⟨s, hturn⟩
  · exact ⟨_, hturn⟩
  · obtain ⟨p, hexec, -⟩ := exec_follows i s
    exact ⟨_, hturn.trans hexec⟩

theorem hostAccess_inReset (hr : s.resetAsserted = true) (a : HostAccess) :
    hostAccess a s = .refused .accessDuringReset := if_pos hr

theorem agentWrite_next (addr : Addr) (b : Byte) (s : State) : ∃ t, agentWrite addr b s = .next t := by
  cases hrace : s.races addr with
  | true => exact ⟨_, agentWrite_race hrace b⟩
  | false => exact ⟨_, agentWrite_plain hrace b⟩

/-- Outside a race a byte nothing has written has no value the model knows (log 12). -/
theorem agentRead_unwritten {addr : Addr} (h : s.races addr = false) (hv : memRead s.mem addr.toNat = none) :
    agentRead addr s = .fault .unwrittenFrameByte := by
  have hfree : ¬(s.frameInProgress && s.inFrameRegion addr.toNat) = true := Bool.eq_false_iff.1 h
  rw [agentRead, if_neg hfree, hv]

theorem agentRead_cases (addr : Addr) (s : State) : (∃ t, agentRead addr s = .next t) ∨
    (agentRead addr s = .fault .unwrittenFrameByte ∧ memRead s.mem addr.toNat = none) := by
  cases hrace : s.races addr with
  | true => exact .inl ⟨_, agentRead_race hrace⟩
  | false =>
    cases hv : memRead s.mem addr.toNat with
    | some v => exact .inl ⟨_, agentRead_plain hrace hv⟩
    | none => exact .inr ⟨agentRead_unwritten hrace hv, rfl⟩

/-- The ways an event can end: it answers a next state, but for the two stops (logs 12 and 14). -/
theorem handle_stops (e : Event) (s : State) : (∃ t, handle e s = .next t) ∨
    (handle e s = .refused .accessDuringReset ∧ s.resetAsserted = true ∧ ∃ a, e = .host a) ∨
    (handle e s = .fault .unwrittenFrameByte ∧ ∃ a, e = .agentRead a ∧ memRead s.mem a.toNat = none) := by
  cases e with
  | host a =>
    cases hr : s.resetAsserted with
    | false => exact .inl (hostAccess_next a hr)
    | true => exact .inr (.inl ⟨hostAccess_inReset hr a, rfl, a, rfl⟩)
  | agentWrite addr b => exact .inl (agentWrite_next addr b s)
  | agentRead addr =>
    obtain hnext | ⟨hfault, hnone⟩ := agentRead_cases addr s
    · exact .inl hnext
    · exact .inr (.inr ⟨hfault, addr, rfl, hnone⟩)
  | resetLine asserted => exact .inl ⟨_, rfl⟩
  | sequencer => exact .inl (sequencerTurn_next s)

/-- Settles O8: the sequencer's turn always answers, and of the events two kinds can stop. -/
theorem stepStopsOnlyForTheOutside : Obligations.StepStopsOnlyForTheOutside := by
  intro s
  cases he : s.events with
  | nil =>
    rw [step_no_event he]
    exact .inl (sequencerTurn_next s)
  | cons e rest =>
    rw [step_event he]
    obtain hnext | ⟨hrefused, hr, a, rfl⟩ | ⟨hfault, a, rfl, hnone⟩ := handle_stops e { s with events := rest }
    · exact .inl hnext
    · exact .inr (.inl ⟨hrefused, hr, a, rest, rfl⟩)
    · exact .inr (.inr ⟨hfault, a, rest, rfl, hnone⟩)

end Sys2Proof.Machine

namespace Sys2Proof.Machine

/-! A command whose answer never comes (70_reset_and_hazards.md R732, 43_transform_interface.md R408): it hangs where it
waits, whatever comes from outside short of a reset, and a soft reset ends it (40_command_control.md R261). -/

variable {s t : State} {i : Instr} {st : Stage} {data : Half}

/-! ### The hang and what keeps it -/

/-- The wait of command `i` at stage `st` is for an answer that never comes (logs 3, 5). -/
def State.NeverAnswered (s : State) (i : Instr) (st : Stage) : Prop :=
  ((i = .transform ∨ i = .generate) ∧ st = .engine ∧ s.engine.head? = some .never) ∨
    ((i = .placeFrame ∨ i = .generate) ∧ st = .frame ∧ ∃ n o, s.frameAnswers.head? = some (.never n o))

/-- Command `i` waits at stage `st` for an answer that never comes, and DONE is clear. -/
structure State.Hanging (s : State) (i : Instr) (st : Stage) : Prop where
  released : s.resetAsserted = false
  notDone : s.status.done = false
  waits : s.sequencer = .busy (.command i) st
  unanswered : s.NeverAnswered i st

/-- From `s` to `t` nothing a hang depends on changes: the sequencer, the reset line and the answers to come are as they
were, and DONE is not set. -/
structure State.KeepsWait (s t : State) : Prop where
  resetAsserted : t.resetAsserted = s.resetAsserted
  done : s.status.done = false → t.status.done = false
  sequencer : t.sequencer = s.sequencer
  engine : t.engine = s.engine
  frameAnswers : t.frameAnswers = s.frameAnswers
  events : t.events = s.events

theorem State.KeepsWait.refl (s : State) : s.KeepsWait s := ⟨rfl, id, rfl, rfl, rfl, rfl⟩

theorem State.Hanging.busy (h : s.Hanging i st) : s.busy = true := busy_of_sequencer h.waits

theorem State.Hanging.of_keepsWait (h : s.Hanging i st) (hk : s.KeepsWait t) : t.Hanging i st where
  released := hk.resetAsserted.trans h.released
  notDone := hk.done h.notDone
  waits := hk.sequencer.trans h.waits
  unanswered := by
    rw [State.NeverAnswered, hk.engine, hk.frameAnswers]
    exact h.unanswered

/-! ### The sequencer's turn -/

theorem exec_transform_at_engine {c : Decoded} (hq : s.sequencer = .busy c .engine) :
    exec .transform s = .next (s.transformAnswer .transform).finish := by
  rw [exec, execTransform, State.stage, hq]

theorem exec_placeFrame_at_frame {c : Decoded} (hq : s.sequencer = .busy c .frame) :
    exec .placeFrame s = .next (s.frameStage .placeFrame s.opOff).finish := by
  rw [exec, execPlaceFrame, State.stage, hq]

theorem exec_generate_at_engine {c : Decoded} (hq : s.sequencer = .busy c .engine) :
    exec .generate s = .next s.generateAnswer.finish := by
  rw [exec_generate_eq, generateProgress_at_engine hq]

theorem exec_generate_at_frame {c : Decoded} (hq : s.sequencer = .busy c .frame) :
    exec .generate s = .next (s.frameStage .generate s.opOffset).finish := by
  rw [exec_generate_eq, generateProgress_at_frame hq, State.generateFrame]

theorem waitAt_of_waiting (hq : s.sequencer = .busy (.command i) st) : s.waitAt i st = s := by
  rw [State.waitAt, ← hq]

/-- An engine that never answers leaves the command that invoked it exactly where it waits. -/
theorem exec_of_engine_never (hi : i = .transform ∨ i = .generate) (hq : s.sequencer = .busy (.command i) .engine)
    (hnever : s.engine.head? = some .never) : exec i s = .next s := by
  obtain ⟨l, heng⟩ := List.head?_eq_some_iff.1 hnever
  have hstay : s.transformAnswer i = .waiting s := by rw [transformAnswer_never i heng, waitAt_of_waiting hq]
  obtain rfl | rfl := hi
  · rw [exec_transform_at_engine hq, hstay, Progress.finish]
  · rw [exec_generate_at_engine hq, State.generateAnswer, hstay, andThen_waiting, Progress.finish]

/-- A frame memory that never answers keeps the frame stage in its wait. -/
theorem frameStage_of_never (off : Int) {n o : Nat} (hnever : s.frameAnswers.head? = some (.never n o)) :
    ∃ n' o', s.frameStage i off = .waiting (s.frameWait i n' o') := by
  have hlook : s.FrameLook (.never n o) s.frameAnswers s.draws := .inr (.inl ⟨rfl, hnever, rfl, rfl⟩)
  obtain ⟨n', o', hwait, -⟩ := frameStage_of_wait i off hlook (.inr ⟨n, o, rfl⟩)
  exact ⟨n', o', hwait⟩

theorem exec_of_frame_never (hi : i = .placeFrame ∨ i = .generate) (hq : s.sequencer = .busy (.command i) .frame)
    {n o : Nat} (hnever : s.frameAnswers.head? = some (.never n o)) : ∃ n' o', exec i s = .next (s.frameWait i n' o') := by
  obtain rfl | rfl := hi
  · obtain ⟨n', o', hwait⟩ := frameStage_of_never (i := .placeFrame) s.opOff hnever
    exact ⟨n', o', by rw [exec_placeFrame_at_frame hq, hwait, Progress.finish]⟩
  · obtain ⟨n', o', hwait⟩ := frameStage_of_never (i := .generate) s.opOffset hnever
    exact ⟨n', o', by rw [exec_generate_at_frame hq, hwait, Progress.finish]⟩

theorem frameWait_keepsWait (hq : s.sequencer = .busy (.command i) .frame) (n o : Nat) :
    s.KeepsWait (s.frameWait i n o) := ⟨rfl, id, hq.symm, rfl, rfl, rfl⟩

theorem State.Hanging.sequencerTurn_keepsWait (h : s.Hanging i st) : ∃ t, sequencerTurn s = .next t ∧ s.KeepsWait t := by
  have hq := h.waits
  rw [sequencerTurn_command h.released hq]
  obtain ⟨hi, rfl, hnever⟩ | ⟨hi, rfl, n, o, hnever⟩ := h.unanswered
  · exact ⟨s, exec_of_engine_never hi hq hnever, .refl s⟩
  · obtain ⟨n', o', hexec⟩ := exec_of_frame_never hi hq hnever
    exact ⟨_, hexec, frameWait_keepsWait hq n' o'⟩

/-! ### The outside -/

theorem hostRead_keepsWait (s : State) (g : Target) : s.KeepsWait (s.hostRead g) := by
  by_cases h : s.busy = false ∨ g.isWindow = false
  · rw [hostRead_determined h]
    exact ⟨rfl, id, rfl, rfl, rfl, rfl⟩
  · obtain ⟨hb, hw⟩ := not_or.1 h
    rw [hostRead_window_busy (Bool.eq_true_of_not_eq_false hb) (Bool.eq_true_of_not_eq_false hw)]
    exact ⟨rfl, id, rfl, rfl, rfl, rfl⟩

/-- While BUSY a write sets IRQ_EN, clears W1C bits or sets WBUSY, unless it is the soft reset (40_command_control.md
R253). -/
theorem hostWrite_keepsWait (hb : s.busy = true) {g : Target} (hreset : g = .register .ctrl → data.getLsbD 0 = false) :
    s.KeepsWait (s.hostWrite g data) := by
  by_cases hc : g = .register .ctrl
  · rw [hc, hostWrite_ctrl, if_neg (Bool.eq_false_iff.1 (hreset hc))]
    exact ⟨rfl, id, rfl, rfl, rfl, rfl⟩
  by_cases hs : g = .register .status
  · subst hs
    have hclear (hd : s.status.done = false) : (s.status.writeOneToClear data).done = false := by
      rw [Status.writeOneToClear, hd, Bool.false_and]
    exact ⟨rfl, hclear, rfl, rfl, rfl, rfl⟩
  rw [hostWrite_busy hb hc hs]
  exact ⟨rfl, id, rfl, rfl, rfl, rfl⟩

theorem hostAccess_keepsWait {a : HostAccess} (hb : s.busy = true) (hreset : (Event.host a).isReset = false)
    (h : hostAccess a s = .next t) : s.KeepsWait t := by
  have hr : s.resetAsserted = false := released_of_hostAccess h
  cases hw : a.wellFormed with
  | false =>
    rw [hostAccess_illegal hr hw] at h
    cases h
    exact ⟨rfl, id, rfl, rfl, rfl, rfl⟩
  | true =>
    obtain ⟨o, ho, h4, rfl | ⟨data, rfl⟩⟩ := eq_readAt_or_writeAt hw
    · rw [hostAccess_readAt hr ho h4] at h
      cases h
      exact hostRead_keepsWait s _
    · rw [hostAccess_writeAt hr ho h4] at h
      cases h
      have hctrl (hg : targetAt o = .register .ctrl) : data.getLsbD 0 = false := by
        obtain rfl := offset_of_targetAt h4 hg
        simpa [Event.isReset, writeAt, Register.offset] using hreset
      exact { hostWrite_keepsWait hb hctrl with }

theorem agentWrite_keepsWait {addr : Addr} {b : Byte} (h : agentWrite addr b s = .next t) : s.KeepsWait t := by
  cases hrace : s.races addr with
  | true =>
    rw [agentWrite_race hrace] at h
    cases h
    exact ⟨rfl, id, rfl, rfl, rfl, rfl⟩
  | false =>
    rw [agentWrite_plain hrace] at h
    cases h
    exact ⟨rfl, id, rfl, rfl, rfl, rfl⟩

/-- An event that is neither a reset nor another agent's read of frame memory answers a next state, with the hang as it
was. -/
theorem State.Hanging.handle_keepsWait (h : s.Hanging i st) {e : Event} (hreset : e.isReset = false)
    (hread : ∀ a, e ≠ .agentRead a) : ∃ t, handle e s = .next t ∧ s.KeepsWait t := by
  cases e with
  | host a =>
    obtain ⟨t, ht⟩ := hostAccess_next a h.released
    exact ⟨t, ht, hostAccess_keepsWait h.busy hreset ht⟩
  | agentWrite addr b =>
    obtain ⟨t, ht⟩ := agentWrite_next addr b s
    exact ⟨t, ht, agentWrite_keepsWait ht⟩
  | agentRead addr => exact absurd rfl (hread addr)
  | resetLine asserted => cases hreset
  | sequencer => exact h.sequencerTurn_keepsWait

/-! ### A run of a hang, and its end -/

/-- Nothing to come from outside is a reset or another agent's read of frame memory. -/
def State.Undisturbed (s : State) : Prop := ∀ e ∈ s.events, e.isReset = false ∧ ∀ a, e ≠ .agentRead a

theorem State.Hanging.step_hanging (h : s.Hanging i st) (hu : s.Undisturbed) :
    ∃ t, step s = .next t ∧ t.Hanging i st ∧ t.Undisturbed := by
  cases hevents : s.events with
  | nil =>
    obtain ⟨t, ht, hk⟩ := h.sequencerTurn_keepsWait
    refine ⟨t, (step_no_event hevents).trans ht, h.of_keepsWait hk, ?_⟩
    rw [State.Undisturbed, hk.events]
    exact hu
  | cons e rest =>
    rw [State.Undisturbed, hevents] at hu
    obtain ⟨⟨hreset, hread⟩, hrest⟩ := List.forall_mem_cons.1 hu
    have htaken : State.Hanging { s with events := rest } i st := { h with }
    obtain ⟨t, ht, hk⟩ := htaken.handle_keepsWait hreset hread
    refine ⟨t, (step_event hevents).trans ht, htaken.of_keepsWait hk, ?_⟩
    rw [State.Undisturbed, hk.events]
    exact hrest

theorem State.Hanging.run_hanging (h : s.Hanging i st) (hu : s.Undisturbed) (k : Nat) :
    ∃ t : State, Host.Core.run core k s = .next t ∧ t.Hanging i st := by
  induction k generalizing s with
  | zero => exact ⟨s, rfl, h⟩
  | succ k ih =>
    obtain ⟨t, hstep, ht, hut⟩ := h.step_hanging hu
    rw [run_next hstep]
    exact ih ht hut

/-- Settles O49: the hang is kept by every step, and the soft reset that ends it does not look at the sequencer. -/
theorem hangEndsOnlyByReset : Obligations.HangEndsOnlyByReset := by
  intro s i st hr hd hq hnever hevents k
  have hhang : s.Hanging i st := ⟨hr, hd, hq, hnever⟩
  obtain ⟨t, hrun, ht⟩ := hhang.run_hanging hevents k
  exact ⟨t, hrun, ht.busy, ht.notDone, ht.waits.trans hq.symm, _, hostAccess_softReset ht.released rfl, rfl, rfl⟩

end Sys2Proof.Machine
